-- ==== Sys2Proof/Word.lean ====
section
/-! DEFINITION. Widths of the machine's words (spec/00 R4, spec/08 R224) and the sparse map in which
register files and memories are held: a list of (key, value) pairs in rising key order, holding no
entry equal to the default. -/

namespace Sys2Proof

/-- A byte. -/
abbrev Byte := BitVec 8
/-- A 32-bit word: an instruction word, a vector lane, an S-address. -/
abbrev W32 := BitVec 32
/-- A 64-bit word: a g register. -/
abbrev W64 := BitVec 64
/-- A vector register: 16 lanes of 32 bits, lane i in bits [32i+31:32i] (R224). -/
abbrev Vec := BitVec 512

/-- A sparse map from numbers to values: keys strictly rising, no value equal to the default. -/
abbrev FMap (α : Type) := List (Nat × α)

end Sys2Proof
end

