-- ==== Sys2Proof/Config.lean ====
section
/-! DEFINITION. What one implementation fixes and what the spec leaves open: opaque free values, of
which nothing can be proved, and the site arrangement of the modelled part. -/

namespace Sys2Proof.Config

/-- FREE VALUE (DESIGN CHOICE, log 8). Which of the steps that are due, or of the contexts, moves next: the spec gives no order
between agents beyond the guards of each step (R160, R163). -/
opaque choose : Nat → Nat

/-- FREE VALUE (DESIGN CHOICE, log 10). Compute-clock cycles a step takes beyond one: latencies affect only timing
(R2, R262, R318). -/
opaque elapsed : Nat → Nat

/-- FREE VALUE (DESIGN CHOICE, log 11). Whether VEXP2 gives the upper of the two bracketing FP32 values (R307). The same input
gives the same value every time. -/
opaque exp2Up : BitVec 32 → Bool
/-- FREE VALUE (DESIGN CHOICE, log 11). As exp2Up, for VLOG2. -/
opaque log2Up : BitVec 32 → Bool
/-- FREE VALUE (DESIGN CHOICE, log 11). As exp2Up, for VTANH. -/
opaque tanhUp : BitVec 32 → Bool
/-- FREE VALUE (DESIGN CHOICE, log 11). A special function (0 VEXP2, 1 VLOG2, 2 VTANH) of an input whose two bracketing values the
model's interval bounds do not settle. -/
opaque sfFree : Nat → BitVec 32 → BitVec 32

/-- FREE VALUE (DESIGN CHOICE, log 12). The body of a readout record of a site that is no matrix cell: restored only on the same
configuration, its layout is not given (R391). Arguments: site key, byte number. -/
opaque readoutByte : Nat → Nat → BitVec 8

/-- FREE VALUE (DESIGN CHOICE, log 12). The length in 64-byte units, less one, of that body; the argument is the site key. -/
opaque readoutLen : Nat → Nat

/-- FREE VALUE (DESIGN CHOICE, log 38). A value for which the spec states no result; the argument is a fresh draw. -/
opaque freeWord : Nat → BitVec 64

/-- FREE VALUE (DESIGN CHOICE, log 15). Whether the exposure window of another package holds an offset of its HBM, at a draw: its
registers are that package's, and it may write them at any time (R15). -/
opaque peerExposes : Nat → Nat → Nat → Bool

/-- FREE VALUE (DESIGN CHOICE, log 15). A byte of another package's HBM as a read of it answers: by the draw, the location and what
this package last wrote there (R15). -/
opaque peerByte : Nat → Nat → BitVec 8 → BitVec 8

/-- FREE VALUE (DESIGN CHOICE, log 16). Lines of a store buffer that a journal chunk holds, less one (R206 gives no figure). -/
opaque chunkLines : Nat

/-- FREE VALUE (DESIGN CHOICE, log 17). Entries of a die's spawn queues that its Dispatcher holds before they spill, less one; the
spec gives no figure (R215). -/
opaque spawnSlots : Nat

/-- DESIGN CHOICE (log 5). The arrangement of site kinds of the modelled part, as runs (count, code of Table 12-1)
in ascending site index, the same on each die. The spec promises only the counts of R1 (R437). -/
def siteRuns : List (Nat × Nat) :=
  [(768, 0xB), (672, 0xA), (128, 0xE), (160, 1), (80, 2), (40, 3), (48, 4), (56, 5), (64, 6),
   (80, 7), (32, 8), (128, 9), (24, 0xC), (16, 0xD), (8, 0xF)]

end Sys2Proof.Config
end

