-- ==== Sys2Proof/Machine/Map.lean ====
section
/-! DEFINITION. Sparse maps in one canonical form: keys strictly rising and no value equal to the default. Register
files, memory and the per-unit records of State are such maps. -/

namespace Sys2Proof.Machine
open Sys2Proof

/-- The value at a key, if the map lists one. -/
def look {α : Type} : FMap α → Nat → Option α
  | [], _ => none
  | (k, v) :: r, n => if k = n then some v else look r n

/-- The value at a key; the default where none is listed. -/
def getD {α : Type} (m : FMap α) (d : α) (n : Nat) : α := (look m n).getD d

/-- The map without a key. -/
def del {α : Type} : FMap α → Nat → FMap α
  | [], _ => []
  | (k, v) :: r, n => if k = n then del r n else (k, v) :: del r n

/-- Insertion before the first greater key; the key is not listed in the map. -/
def ins {α : Type} : FMap α → Nat → α → FMap α
  | [], n, x => [(n, x)]
  | (k, v) :: r, n, x => if n < k then (n, x) :: (k, v) :: r else (k, v) :: ins r n x

/-- The map with a key set, listed whatever its value. -/
def put {α : Type} (m : FMap α) (n : Nat) (x : α) : FMap α := ins (del m n) n x

/-- The map with a key set, not listed where the value is the default. -/
def setD {α : Type} [DecidableEq α] (m : FMap α) (d : α) (n : Nat) (x : α) : FMap α :=
  if x = d then del m n else put m n x

/-- Keys strictly rising from a bound. -/
def risingFrom {α : Type} : Nat → FMap α → Bool
  | _, [] => true
  | b, (k, _) :: r => decide (b ≤ k) && risingFrom (k + 1) r

/-- Canonical form: keys strictly rising, no value equal to the default. -/
def canonical {α : Type} [DecidableEq α] (m : FMap α) (d : α) : Bool :=
  risingFrom 0 m && m.all (fun p => decide (p.2 ≠ d))

/-- The numbers n, n+1, …, n+k-1. -/
def range' (n : Nat) : Nat → List Nat
  | 0 => []
  | k + 1 => n :: range' (n + 1) k

end Sys2Proof.Machine
end

