-- ==== Sys2Proof/Machine/Fp.lean ====
section
/-! DEFINITION. Element formats, exact values, rounding and conversion (spec/03), and the special functions of spec/10
R307. Every rounded result is formed from the exact real result by one rounding (R83). -/

namespace Sys2Proof.Machine
open Sys2Proof

/-- A floating-point format (Table 3-2): width, exponent and fraction widths, bias. -/
structure FpFmt where
  w : Nat
  eb : Nat
  f : Nat
  bias : Nat
deriving DecidableEq, Repr

def fp32 : FpFmt := { w := 32, eb := 8, f := 23, bias := 127 }
def fp16 : FpFmt := { w := 16, eb := 5, f := 10, bias := 15 }
def bf16 : FpFmt := { w := 16, eb := 8, f := 7, bias := 127 }
def e4m3 : FpFmt := { w := 8, eb := 4, f := 3, bias := 7 }
def e5m2 : FpFmt := { w := 8, eb := 5, f := 2, bias := 15 }
def fp4 : FpFmt := { w := 4, eb := 2, f := 1, bias := 1 }
def fp56 : FpFmt := { w := 56, eb := 11, f := 44, bias := 1023 }

/-- An exact value: NaN with the sign and the fraction (aligned at bit 63) of the operand it comes from, if any;
an infinity; or (-1)^neg * (m + r) * 2^e with 0 ≤ r < 1, and r ≠ 0 exactly where rest is set. -/
inductive Fv where
  | nan (src : Option (Bool × Nat))
  | inf (neg : Bool)
  | fin (neg : Bool) (m : Nat) (e : Int) (rest : Bool)
deriving DecidableEq, Repr

/-- Zero of a sign. -/
def Fv.zero (neg : Bool) : Fv := .fin neg 0 0 false
/-- An integer (R73). -/
def Fv.ofInt (i : Int) : Fv := .fin (decide (i < 0)) i.natAbs 0 false

def Fv.isNan : Fv → Bool
  | .nan _ => true
  | _ => false
def Fv.isZero : Fv → Bool
  | .fin _ m _ r => m == 0 && !r
  | _ => false
def Fv.neg? : Fv → Bool
  | .nan s => (s.getD (false, 0)).1
  | .inf n => n
  | .fin n _ _ _ => n
/-- The value with its sign inverted; a NaN operand keeps its own sign (R82). -/
def Fv.negate : Fv → Fv
  | .nan s => .nan s
  | .inf n => .inf (!n)
  | .fin n m e r => .fin (!n) m e r

/-- The value of an encoding (R70, Table 3-3). -/
def decodeFp (F : FpFmt) (x : Nat) : Fv :=
  let s := x / 2 ^ (F.w - 1) % 2 == 1
  let E := x / 2 ^ F.f % 2 ^ F.eb
  let fr := x % 2 ^ F.f
  let nanV : Fv := .nan (some (s, fr * 2 ^ (63 - F.f)))
  if F = fp4 then
    if E = 0 then .fin s fr (-1) false else .fin s (2 + fr) (E - 1 - 1 : Int) false
  else if F = e4m3 ∧ E = 15 ∧ fr = 7 then nanV
  else if F ≠ e4m3 ∧ E = 2 ^ F.eb - 1 then (if fr = 0 then .inf s else nanV)
  else if E = 0 then .fin s fr (1 - (F.bias : Int) - F.f) false
  else .fin s (2 ^ F.f + fr) ((E : Int) - F.bias - F.f) false

/-- Rounding modes (Table 3-5), by code. -/
inductive Rm where
  | rne | rtz | rdn | rup | rna
deriving DecidableEq, Repr

def rmOf (n : Nat) : Rm :=
  match n with
  | 1 => .rtz
  | 2 => .rdn
  | 3 => .rup
  | 4 => .rna
  | _ => .rne

/-- Policy bits (Table 3-6). -/
def ftzi (pol : Nat) : Bool := pol % 2 == 1
def ftzo (pol : Nat) : Bool := pol / 2 % 2 == 1
def nanc (pol : Nat) : Bool := pol / 4 % 2 == 1
def f8ov (pol : Nat) : Bool := pol / 8 % 2 == 1

/-- The magnitude n with a remainder of which half says how it compares with one half (0 none, 1 below, 2 equal,
3 above), rounded to an integer (R79). -/
def roundMag (rm : Rm) (neg : Bool) (n half : Nat) : Nat :=
  if half = 0 then n
  else
    match rm with
    | .rne => if half = 3 ∨ (half = 2 ∧ n % 2 = 1) then n + 1 else n
    | .rtz => n
    | .rdn => if neg then n + 1 else n
    | .rup => if neg then n else n + 1
    | .rna => if 2 ≤ half then n + 1 else n

/-- (m + r) * 2^e in units of 2^q, rounded to an integer. -/
def roundAt (rm : Rm) (neg : Bool) (m : Nat) (e : Int) (rest : Bool) (q : Int) : Nat :=
  if q ≤ e then roundMag rm neg (m * 2 ^ (e - q).toNat) (if rest then 1 else 0)
  else
    let k := (q - e).toNat
    let r := m % 2 ^ k
    let h := 2 ^ (k - 1)
    let half := if r = 0 ∧ rest = false then 0 else if r < h then 1 else if r = h ∧ rest = false then 2 else 3
    roundMag rm neg (m / 2 ^ k) half

/-- The canonical NaN (Table 3-3). -/
def canonNan (F : FpFmt) : Nat :=
  if F = e4m3 then 0x7F else (2 ^ F.eb - 1) * 2 ^ F.f + 2 ^ (F.f - 1)

/-- A NaN result (R82). -/
def nanResult (F : FpFmt) (pol : Nat) (src : Option (Bool × Nat)) : Nat :=
  if F = fp4 then 0
  else
    match src with
    | none => canonNan F
    | some (s, fr) =>
      if nanc pol then canonNan F
      else
        let sg := if s then 2 ^ (F.w - 1) else 0
        if F = e4m3 then sg + 0x7F
        else sg + (2 ^ F.eb - 1) * 2 ^ F.f + (2 ^ (F.f - 1) + fr / 2 ^ (63 - F.f) % 2 ^ (F.f - 1))

/-- The encoding of the largest finite value of a sign (Table 3-3). -/
def maxEnc (F : FpFmt) (neg : Bool) : Nat :=
  (if neg then 2 ^ (F.w - 1) else 0) +
  (if F = fp4 then 7 else if F = e4m3 then 0x7E else (2 ^ F.eb - 1) * 2 ^ F.f - 1)

/-- The encoding of an infinity. -/
def infEnc (F : FpFmt) (neg : Bool) : Nat := (if neg then 2 ^ (F.w - 1) else 0) + (2 ^ F.eb - 1) * 2 ^ F.f

/-- Overflow results (Table 3-7). Of a finite value that overflows E4M3 with F8OV set under RTZ, R83's pseudocode with that table
gives the
NaN, and R84's last sentence applies that row to infinities alone: here it is the NaN (DESIGN CHOICE, log 48). -/
def overflow (F : FpFmt) (neg : Bool) (rm : Rm) (pol : Nat) : Nat :=
  if F = fp4 then maxEnc F neg
  else if F = e4m3 then (if f8ov pol then nanResult F pol none else maxEnc F neg)
  else if F = e5m2 ∧ f8ov pol = false then maxEnc F neg
  else
    match rm with
    | .rtz => maxEnc F neg
    | .rdn => if neg then infEnc F neg else maxEnc F neg
    | .rup => if neg then maxEnc F neg else infEnc F neg
    | _ => infEnc F neg

/-- convert(x, F, rm, pol) of R83. -/
def convert (x : Fv) (F : FpFmt) (rm : Rm) (pol : Nat) : Nat :=
  match x with
  | .nan src => nanResult F pol src
  | .inf n =>
    if F = fp4 then maxEnc F n
    else if (F = e4m3 ∨ F = e5m2) ∧ f8ov pol = false then maxEnc F n
    else if F = e4m3 then nanResult F pol none
    else infEnc F n
  | .fin n m e rest =>
    let sg := if n then 2 ^ (F.w - 1) else 0
    if m = 0 ∧ rest = false then sg
    else
      let emin : Int := 1 - F.bias
      let ex : Int := if m = 0 then emin else max ((Nat.log2 m : Int) + e) emin
      let q : Int := ex - F.f
      let y := roundAt rm n m e rest q
      -- y units of 2^q; y may be 2^(f+1), which the encoding below carries into the exponent
      if y = 0 then sg
      else
        let enc := if y < 2 ^ F.f then y else ((ex - emin).toNat * 2 ^ F.f + y)
        if maxEnc F false < enc then overflow F n rm pol
        else if ftzo pol ∧ enc < 2 ^ F.f then sg
        else sg + enc

/-- The integer conversion of R83 to a range. -/
def convertInt (x : Fv) (rm : Rm) (lo hi : Int) : Int :=
  match x with
  | .nan _ => 0
  | .inf n => if n then lo else hi
  | .fin n m e rest =>
    let k := roundAt rm n m e rest 0
    let i : Int := if n then -(k : Int) else k
    if i < lo then lo else if hi < i then hi else i

/-- FTZI on an operand of a format (R81): a subnormal is taken as zero of its sign. -/
def flush (F : FpFmt) (pol : Nat) (x : Nat) : Fv :=
  if ftzi pol ∧ x / 2 ^ F.f % 2 ^ F.eb = 0 then .zero (x / 2 ^ (F.w - 1) % 2 == 1) else decodeFp F x

/-! ## Exact arithmetic -/

/-- The first NaN among operands, in operand order (R82). -/
def firstNan : List Fv → Option Fv
  | [] => none
  | .nan s :: _ => some (.nan s)
  | _ :: r => firstNan r

/-- A product of values that are no NaN; infinity times zero is a NaN from no operand. -/
def fvMul (a b : Fv) : Fv :=
  match a, b with
  | .nan s, _ => .nan s
  | _, .nan s => .nan s
  | .inf n, y => if y.isZero then .nan none else .inf (n != y.neg?)
  | x, .inf n => if x.isZero then .nan none else .inf (n != x.neg?)
  | .fin n m e _, .fin n' m' e' _ => .fin (n != n') (m * m') (e + e') false

/-- The signed mantissa of a finite value at an exponent not above its own. -/
def fvAt (x : Fv) (e : Int) : Int :=
  match x with
  | .fin n m e' _ => (if n then -1 else 1) * (m * 2 ^ (e' - e).toNat : Nat)
  | _ => 0

def fvExp : Fv → Int
  | .fin _ m e _ => if m = 0 then 0 else e
  | _ => 0

/-- An exact sum. Infinities of opposite sign give a NaN from no operand; an exact zero sum has the sign of its
terms where they agree, and else −0 under RDN and +0 otherwise (R80). -/
def fvSum (rm : Rm) (xs : List Fv) : Fv :=
  match xs.find? Fv.isNan with
  | some n => n
  | none =>
    let pinf := xs.any (fun x => x == .inf false)
    let ninf := xs.any (fun x => x == .inf true)
    if pinf && ninf then .nan none
    else if pinf then .inf false
    else if ninf then .inf true
    else
      let e := xs.foldl (fun a x => min a (fvExp x)) 0
      let t : Int := xs.foldl (fun a x => a + fvAt x (if x.isZero then 0 else e)) 0
      if t = 0 then
        if xs.all (fun x => x.isZero && x.neg?) then .zero true
        else if xs.all (fun x => x.isZero && !x.neg?) then .zero false
        else .zero (rm == .rdn)
      else .fin (decide (t < 0)) t.natAbs e false

/-- The NaN of the operands in their order, else a value. -/
def orNan (ops : List Fv) (x : Fv) : Fv := (firstNan ops).getD x

/-- −1, 0 or 1 as a compares with b, both no NaN; −0 equals +0. -/
def fvCmp (a b : Fv) : Int :=
  let key (x : Fv) : Int := match x with
    | .inf n => if n then -1 else 1
    | _ => 0
  if key a ≠ key b then (if key a < key b then -1 else 1)
  else if key a ≠ 0 then 0
  else
    let e := min (fvExp a) (fvExp b)
    let x := fvAt a (if a.isZero then 0 else e)
    let y := fvAt b (if b.isZero then 0 else e)
    if x < y then -1 else if x = y then 0 else 1

/-! ## Roots, reciprocals and the special functions (R307) -/

/-- Newton steps down to the integer square root. -/
def isqrtFrom (n : Nat) : Nat → Nat → Nat
  | 0, x => x
  | f + 1, x => let y := (x + n / x) / 2; if y < x then isqrtFrom n f y else x

/-- The integer square root. -/
def isqrt (n : Nat) : Nat := if n = 0 then 0 else isqrtFrom n 600 (2 ^ (Nat.log2 n / 2 + 1))

/-- 1/x exactly enough to round (Table 10-2). -/
def fvRcp (x : Fv) : Fv :=
  match x with
  | .nan s => .nan s
  | .inf n => .zero n
  | .fin n m e _ =>
    if m = 0 then .inf n
    else
      let k := Nat.log2 m + 200
      .fin n (2 ^ k / m) (-e - k) (2 ^ k % m != 0)

/-- √x exactly enough to round. -/
def fvSqrt (x : Fv) : Fv :=
  match x with
  | .nan s => .nan s
  | .inf n => if n then .nan none else .inf false
  | .fin n m e _ =>
    if m = 0 then .zero n
    else if n then .nan none
    else
      let m' := if e % 2 = 0 then m * 2 ^ 200 else m * 2 ^ 201
      let e' := if e % 2 = 0 then e - 200 else e - 201
      let r := isqrt m'
      .fin false r (e' / 2) (r * r != m')

/-- 1/√x exactly enough to round. -/
def fvRsq (x : Fv) : Fv :=
  match x with
  | .nan s => .nan s
  | .inf n => if n then .nan none else .zero false
  | .fin n m e _ =>
    if m = 0 then .inf n
    else if n then .nan none
    else
      let m' := if e % 2 = 0 then m else m * 2
      let e' := if e % 2 = 0 then e else e - 1
      let k := 2 * (Nat.log2 m' + 120)
      let r := isqrt (2 ^ k / m')
      .fin false r (-(e' / 2) - k / 2) (r * r * m' != 2 ^ k)

/-- Bits of fixed point of the bounds below. -/
def fxBits : Nat := 320

/-- 2^(2^-i) in fixed point, rounded down, for i = 1, 2, …: each the root of the one before. -/
def rootsOfTwo : Nat → Nat → List Nat
  | 0, _ => []
  | n + 1, prev => let r := isqrt (prev * 2 ^ fxBits); r :: rootsOfTwo n r

/-- Bounds of 2^g for a fraction g given by its bits, most significant first: each factor is known to within two units
below. -/
def exp2Frac : List Bool → List Nat → Nat → Nat → Nat × Nat
  | b :: bs, r :: rs, lo, hi =>
    if b then exp2Frac bs rs (lo * r / 2 ^ fxBits) (hi * (r + 4) / 2 ^ fxBits + 1) else exp2Frac bs rs lo hi
  | _, _, lo, hi => (lo, hi)

/-- One of the two FP32 values that bracket a value known by bounds (R307), by a choice; a free value where the bounds
do not settle them. Overflow follows the RNE column. -/
def bracket (tag : Nat) (x : BitVec 32) (neg : Bool) (lo hi : Nat) (e : Int) (up : Bool) (pol : Nat) : Nat :=
  let rm : Rm := if up then .rup else .rdn
  let a := convert (.fin neg lo e true) fp32 rm 0
  let b := convert (.fin neg hi e false) fp32 rm 0
  if a = b then convert (.fin neg lo e true) fp32 rm (pol % 4) else (Config.sfFree tag x).toNat

/-- VEXP2 of a flushed operand. -/
def fpExp2 (raw : BitVec 32) (x : Fv) (pol : Nat) : Nat :=
  match x with
  | .nan s => nanResult fp32 pol s
  | .inf n => if n then 0 else infEnc fp32 false
  | .fin n m e _ =>
    if m = 0 then convert (.ofInt 1) fp32 .rne pol
    else
      -- x = i + g with i an integer and 0 ≤ g < 1
      let t : Int := if n then -(m : Int) else m
      let i : Int := if 0 ≤ e then t * 2 ^ e.toNat else t / (2 ^ (-e).toNat : Nat)
      let k := (-e).toNat
      let g : Nat := if 0 ≤ e then 0 else (t - i * (2 ^ k : Nat)).toNat
      if 128 ≤ i then infEnc fp32 false
      else if i < -149 then (if Config.exp2Up raw ∧ ftzo pol = false then 1 else 0)
      else if g = 0 then convert (.fin false 1 i false) fp32 .rne pol
      else
        let bs := (range' 1 k).map (fun j => g / 2 ^ (k - j) % 2 == 1)
        let (lo, hi) := exp2Frac bs (rootsOfTwo k (2 * 2 ^ fxBits)) (2 ^ fxBits) (2 ^ fxBits)
        bracket 0 raw false lo hi (i - fxBits) (Config.exp2Up raw) pol

/-- The next bits of log2 z for bounds of z in [1, 2), most significant first; none where the bounds part. -/
def log2Bits : Nat → Nat → Nat → Nat → Option Nat
  | 0, _, _, acc => some acc
  | n + 1, lo, hi, acc =>
    let lo2 := lo * lo / 2 ^ fxBits
    let hi2 := hi * hi / 2 ^ fxBits + 1
    if 2 ^ (fxBits + 1) ≤ lo2 then log2Bits n (lo2 / 2) (hi2 / 2 + 1) (2 * acc + 1)
    else if hi2 < 2 ^ (fxBits + 1) then log2Bits n lo2 hi2 (2 * acc)
    else none

/-- VLOG2 of a flushed operand. -/
def fpLog2 (raw : BitVec 32) (x : Fv) (pol : Nat) : Nat :=
  match x with
  | .nan s => nanResult fp32 pol s
  | .inf n => if n then canonNan fp32 else infEnc fp32 false
  | .fin n m e _ =>
    if m = 0 then infEnc fp32 true
    else if n then canonNan fp32
    else
      let L := Nat.log2 m
      let i : Int := L + e
      if m = 2 ^ L then convert (.ofInt i) fp32 .rne pol
      else
        let z := m * 2 ^ (fxBits - L)
        match log2Bits 120 z z 0 with
        | none => (Config.sfFree 1 raw).toNat
        | some fr =>
          let v : Int := i * 2 ^ 120 + fr
          let up := Config.log2Up raw
          -- the exact value lies strictly between v and v + 1 units of 2^-120
          if 0 ≤ v then bracket 1 raw false v.natAbs (v.natAbs + 1) (-120) up pol
          else bracket 1 raw true (v.natAbs - 1) v.natAbs (-120) up pol

/-- Terms of the exponential series of y / 2^fxBits, rounded down. -/
def expTerms : Nat → Nat → Nat → Nat → Nat → Nat
  | 0, _, _, _, acc => acc
  | n + 1, y, k, term, acc => let t := term * y / 2 ^ fxBits / k; expTerms n y (k + 1) t (acc + t)

/-- A fixed-point square, n times. -/
def sqTimes : Nat → Nat → Nat → Nat
  | 0, _, x => x
  | n + 1, up, x => sqTimes n up (x * x / 2 ^ fxBits + up)

/-- VTANH of a flushed operand. -/
def fpTanh (raw : BitVec 32) (x : Fv) (pol : Nat) : Nat :=
  match x with
  | .nan s => nanResult fp32 pol s
  | .inf n => convert (.ofInt (if n then -1 else 1)) fp32 .rne pol
  | .fin n m e _ =>
    if m = 0 then convert (.zero n) fp32 .rne pol
    else if fvCmp (.fin false m e false) (.ofInt 9) ≥ 0 then convert (.ofInt (if n then -1 else 1)) fp32 .rne pol
    else if fvCmp (.fin false m e false) (.fin false 1 (-12) false) < 0 then convert x fp32 .rne pol
    else
      -- 2|x| / 64 in fixed point: at least 2^-17, below 1/3; e ≥ -149 keeps it whole
      let y := m * 2 ^ ((fxBits : Int) + e - 5).toNat
      let s := expTerms 60 y 1 (2 ^ fxBits) (2 ^ fxBits)
      let lo := sqTimes 6 0 s
      let hi := sqTimes 6 1 (s + 100)
      let one := 2 ^ fxBits
      let a := (lo - one) * one / (lo + one)
      let b := (hi - one) * one / (hi + one) + 1
      bracket 2 raw n a b (-(fxBits : Int)) (Config.tanhUp raw != n) pol

/-! ## Element formats by code (Table 3-1) -/

/-- The floating-point format of a code, if it is one. -/
def fpOf (code : Nat) : Option FpFmt :=
  match code with
  | 0 => some fp32
  | 1 => some fp16
  | 2 => some bf16
  | 3 => some e4m3
  | 4 => some e5m2
  | 5 => some fp4
  | _ => none

/-- Element size in bytes of the formats of 8 bits or wider. -/
def elemSize (code : Nat) : Nat :=
  match code with
  | 0 => 4
  | 0xC => 4
  | 1 => 2
  | 2 => 2
  | 0xB => 2
  | _ => 1

/-- The value of an element of a code (R69-R75), with FTZI on the formats of R81. -/
def elemVal (code : Nat) (pol : Nat) (x : Nat) : Fv :=
  match code with
  | 0 => flush fp32 pol x
  | 1 => flush fp16 pol x
  | 2 => flush bf16 pol x
  | 3 => flush e4m3 pol x
  | 4 => flush e5m2 pol x
  | 5 => decodeFp fp4 (x % 16)
  | 7 => .ofInt (BitVec.ofNat 8 x).toInt
  | 8 => .ofInt (BitVec.ofNat 4 x).toInt
  | 9 => .ofInt (x % 16 : Nat)
  | 0xC => .ofInt (BitVec.ofNat 32 x).toInt
  | 0xD => if x % 256 = 255 then .nan none else .fin false 1 ((x % 256 : Nat) - 127 : Int) false
  | _ => .zero false

/-- A value converted to a code (R83), as the low bits of the element. -/
def elemEnc (code : Nat) (rm : Rm) (pol : Nat) (x : Fv) : Nat :=
  match code with
  | 7 => (BitVec.ofInt 8 (convertInt x rm (-128) 127)).toNat
  | 8 => (BitVec.ofInt 4 (convertInt x rm (-8) 7)).toNat
  | 9 => (convertInt x rm 0 15).toNat
  | 0xC => (BitVec.ofInt 32 (convertInt x rm (-2147483648) 2147483647)).toNat
  | c => convert x ((fpOf c).getD fp32) rm pol

/-- FP32 arithmetic of lanes: operands as encodings, under a policy. -/
def fpAdd (rm : Rm) (pol a b : Nat) : Nat :=
  let x := flush fp32 pol a
  let y := flush fp32 pol b
  convert (orNan [x, y] (fvSum rm [x, y])) fp32 rm pol
def fpSub (rm : Rm) (pol a b : Nat) : Nat :=
  let x := flush fp32 pol a
  let y := flush fp32 pol b
  convert (orNan [x, y] (fvSum rm [x, y.negate])) fp32 rm pol
def fpMul (rm : Rm) (pol a b : Nat) : Nat :=
  let x := flush fp32 pol a
  let y := flush fp32 pol b
  convert (orNan [x, y] (fvMul x y)) fp32 rm pol

/-- d ± a × b with one rounding (R301): 0 × ∞ gives the canonical NaN even when d is NaN. -/
def fpFma (rm : Rm) (pol : Nat) (sub : Bool) (d a b : Nat) : Nat :=
  let z := flush fp32 pol d
  let x := flush fp32 pol a
  let y := flush fp32 pol b
  let pr := fvMul x y
  if !x.isNan && !y.isNan && pr.isNan then canonNan fp32
  else convert (orNan [z, x, y] (fvSum rm [z, if sub then pr.negate else pr])) fp32 rm pol

/-- The lesser (or greater) of two flushed operands, −0 below +0 (R302); FTZO applies to it. -/
def fpMinMax (greater : Bool) (pol a b : Nat) : Nat :=
  let x := flush fp32 pol a
  let y := flush fp32 pol b
  match firstNan [x, y] with
  | some n => convert n fp32 .rne pol
  | none =>
    let c := fvCmp x y
    let less := c < 0 || (c = 0 && x.neg? && !y.neg?)
    convert (if less != greater then x else y) fp32 .rne pol

/-- A value without its sign. -/
def Fv.abs : Fv → Fv
  | .nan s => .nan (s.map (fun x => (false, x.2)))
  | .inf _ => .inf false
  | .fin _ m e r => .fin false m e r

/-- Whether a finite value lies below the least normal of FP32 (R81). -/
def fvBelow : Fv → Bool
  | .fin _ m e _ => decide (m ≠ 0) && decide ((Nat.log2 m : Int) + e < -126)
  | _ => false

/-- Whether one value is less than another, both no NaN; −0 is less than +0 (R302). -/
def fvLess (x y : Fv) : Bool :=
  let c := fvCmp x y
  decide (c < 0) || (decide (c = 0) && x.neg? && !y.neg?)

/-- The sum of an RMW node (R51): no policy, RNE, exact zero of opposite signs +0, NaN canonical. -/
def nodeAdd (F : FpFmt) (a b : Nat) : Nat :=
  let x := decodeFp F a
  let y := decodeFp F b
  if x.isNan || y.isNan then canonNan F else convert (fvSum .rne [x, y]) F .rne 0

/-! ## Four-bit elements and VQ2 (R77, R85) -/

/-- The bit offset of four-bit element e of a row of packets (R85). -/
def nibBit (e : Nat) : Nat := 8 * (32 * (e / 64) + e % 32) + (if 32 ≤ e % 64 then 4 else 0)

/-- vq2_decode of R77: the eight weights in half-units, from an index and its pattern entry. -/
def vq2 (idx w : Nat) : List Int :=
  let c := idx / 2 ^ 15 % 2
  let e (i : Nat) : Int := (2 * (w / 2 ^ (4 * i + 1) % 8) + c : Nat)
  let h (i : Nat) : Int := if idx / 2 ^ i % 2 = 1 then -(e i) else e i
  let hs := (range' 0 7).map h
  let s := hs.foldl (· + ·) (e 7)
  let ones := (range' 0 7).foldl (fun n i => n + idx / 2 ^ i % 2) 0
  let neg7 : Bool := if c = 1 then (s / 2) % 2 == 1 else ones % 2 == 1
  hs ++ [if neg7 then -(e 7) else e 7]

/-- A number of half-units as an exact value; zero is +0. -/
def halves (h : Int) : Fv := .fin (decide (h < 0)) h.natAbs (-1) false

end Sys2Proof.Machine
end

