-- ==== Sys2Proof/Syntax.lean ====
section
/-! DEFINITION. The instructions (spec/08 R229-R236, spec/09-11) and the machine's own steps (the event rows of
spec/opcode_table.json), one constructor a row. An instruction word carries its fields as one record of its format;
an event row carries what its rule says it acts on. -/

namespace Sys2Proof

/-- The extension of an X word before an R or V word (Table 8-6). has: an X word stands before the word; all
other fields are 0 where it does not. -/
structure XW where
  has : Bool
  rm : BitVec 3
  scp : BitVec 3
  ord : BitVec 2
  neg : Bool
  ximm : BitVec 17
deriving DecidableEq, Repr

/-- No X word. -/
def XW.none : XW := { has := false, rm := 0, scp := 0, ord := 0, neg := false, ximm := 0 }

/-- An R or V word (Table 8-5): d, a, b, pred and the X extension. A selector field holds 0 here. -/
structure OpR where
  d : BitVec 6
  a : BitVec 6
  b : BitVec 6
  p : BitVec 3
  x : XW
deriving DecidableEq, Repr

/-- An I word of majors 0x01-0x05: imm14, and IMMH of an X word. -/
structure OpI where
  d : BitVec 6
  a : BitVec 6
  imm : BitVec 14
  has : Bool
  immh : BitVec 26
deriving DecidableEq, Repr

/-- A BF word (R236): len holds len - 1. -/
structure OpBf where
  d : BitVec 6
  a : BitVec 6
  len : BitVec 6
  pos : BitVec 6
deriving DecidableEq, Repr

/-- A U word: LIH, ADDPC. -/
structure OpU where
  d : BitVec 6
  imm : BitVec 20
deriving DecidableEq, Repr

/-- A B word: the compare branches. -/
structure OpB where
  a : BitVec 6
  b : BitVec 6
  off : BitVec 14
deriving DecidableEq, Repr

/-- A BX word (R236). -/
structure OpBx where
  a : BitVec 6
  off : BitVec 14
deriving DecidableEq, Repr

/-- A J word. -/
structure OpJ where
  off : BitVec 26
deriving DecidableEq, Repr

/-- PSETI (R236): d and the lane mask. -/
structure OpPset where
  d : BitVec 6
  mask : BitVec 16
deriving DecidableEq, Repr

/-- An M word, with OFFH and NEG of an X word (Table 8-6). -/
structure OpM where
  t : BitVec 6
  a : BitVec 6
  off : BitVec 11
  p : BitVec 3
  has : Bool
  neg : Bool
  offh : BitVec 25
deriving DecidableEq, Repr

/-- A fabric token: tag and payload (R95). -/
structure Token where
  tag : BitVec 4
  data : W32
deriving DecidableEq, Repr

/-- An error met in a line, by the store that holds it (R68): none; one that its code corrects, on a die; an uncorrectable one in the
line of
an L1 or an instruction cache of a core, of a context's store buffer, of a cluster's atomic engine, of the memory-side cache or HBM. -/
inductive LineErr where
  | none
  | corrected (die : Nat)
  | l1 (core : Nat)
  | code (core : Nat)
  | buffer (cid : Nat)
  | engine (cluster : Nat)
  | home
deriving DecidableEq, Repr

/-- A line that a store of the hierarchy serves, and the error met in it. -/
structure LineAcc where
  line : Nat
  err : LineErr
deriving DecidableEq, Repr

/-- What the check bits of a bank word show (R43): nothing, one bit, or more than the code corrects. -/
inductive EccKind where
  | clean | single | double
deriving DecidableEq, Repr

/-- A request of a peer package at this one (R15): HBM offset, length in bytes, the little-endian data of a write or
the operand of an atomic, and the atomic's operation (R57). -/
structure PeerAcc where
  off : Nat
  len : Nat
  kind : Nat
  data : Nat
  expected : Nat
deriving DecidableEq, Repr

/-- A control token (R147): its target, TKS, the value a template receives, and the privilege of what sent it. -/
structure CtlTok where
  tgt : Nat
  tks : Bool
  val : W64
  super : Bool
deriving DecidableEq, Repr

/-- An active message (R334): destination package and die, the launch record, the payload, the sender's privilege. -/
structure Message where
  pkg : Nat
  die : Nat
  packet : BitVec 512
  payload : List Byte
  super : Bool
deriving DecidableEq, Repr

/-- Who makes a CAS on HSEM (R415). -/
inductive RegParty where
  | p0 | p1 | device
deriving DecidableEq, Repr

/-- A host access (R413, R414): port, byte offset, size in bytes, the data when it writes, the compare value of a CAS. -/
structure HostAcc where
  port : Nat
  off : Nat
  size : Nat
  write : Option Nat
  expected : Option Nat
deriving DecidableEq, Repr

/-- A packet on the Fythiman links (R419-R422): packages, destination die, flits, whether its TYPE is reserved, what it
carries, and the credits that came with it, as (kind, flits): 0 the A pool, 1 E0, 2 E1. A circuit packet is its circuit,
sequence number and tokens; one with no token acknowledges. A packet with none of the three is the response to the request of its tag.
par and e are the header's PAR and CLS; die and sdie its DDIE and SDIE. mirror marks a write of a package's mirror (R410; DESIGN
CHOICE, log 43). -/
structure Packet where
  src : Nat
  dst : Nat
  die : Nat
  sdie : Nat
  len : Nat
  reserved : Bool
  mirror : Bool
  msg : Option Message
  acc : Option PeerAcc
  circ : Option (Nat × Nat × List Token)
  ret : List (Nat × Nat)
  par : Bool
  e : Bool
  tag : Nat
deriving DecidableEq, Repr

/-- A code object given to the loader (R248): its bytes, and where the loader places each of its sections: a VA, an
S-address or a placement base; and the objects of its job that are given after it, likewise (R252). -/
structure CodeObject where
  bytes : List Byte
  place : List Nat
  later : List (List Byte × List Nat)
deriving DecidableEq, Repr

/-- The instruction and event rows of spec/opcode_table.json, in its order. -/
inductive Instr where
  /-- ADD (R257). -/
  | add (o : OpR)
  /-- SUB (R257). -/
  | sub (o : OpR)
  /-- MUL (R257). -/
  | mul (o : OpR)
  /-- MULHI (R257). -/
  | mulhi (o : OpR)
  /-- MULHIU (R257). -/
  | mulhiu (o : OpR)
  /-- DIV (R258). -/
  | div (o : OpR)
  /-- DIVU (R258). -/
  | divu (o : OpR)
  /-- REM (R258). -/
  | rem (o : OpR)
  /-- REMU (R258). -/
  | remu (o : OpR)
  /-- AND (R257). -/
  | and (o : OpR)
  /-- OR (R257). -/
  | or (o : OpR)
  /-- XOR (R257). -/
  | xor (o : OpR)
  /-- SHL (R257). -/
  | shl (o : OpR)
  /-- SHR (R257). -/
  | shr (o : OpR)
  /-- SRA (R257). -/
  | sra (o : OpR)
  /-- SHLI (R257). -/
  | shli (o : OpR)
  /-- SHRI (R257). -/
  | shri (o : OpR)
  /-- SRAI (R257). -/
  | srai (o : OpR)
  /-- SLT (R257). -/
  | slt (o : OpR)
  /-- SLTU (R257). -/
  | sltu (o : OpR)
  /-- MIN (R257). -/
  | min (o : OpR)
  /-- MAX (R257). -/
  | max (o : OpR)
  /-- MINU (R257). -/
  | minu (o : OpR)
  /-- MAXU (R257). -/
  | maxu (o : OpR)
  /-- SEL (R257). -/
  | sel (o : OpR)
  /-- LEA_0 (R257). -/
  | lea0 (o : OpR)
  /-- LEA_1 (R257). -/
  | lea1 (o : OpR)
  /-- LEA_2 (R257). -/
  | lea2 (o : OpR)
  /-- LEA_3 (R257). -/
  | lea3 (o : OpR)
  /-- CLZ (R259). -/
  | clz (o : OpR)
  /-- CTZ (R259). -/
  | ctz (o : OpR)
  /-- POPC (R259). -/
  | popc (o : OpR)
  /-- SXT_B (R259). -/
  | sxtB (o : OpR)
  /-- SXT_H (R259). -/
  | sxtH (o : OpR)
  /-- SXT_W (R259). -/
  | sxtW (o : OpR)
  /-- ZXT_B (R259). -/
  | zxtB (o : OpR)
  /-- ZXT_H (R259). -/
  | zxtH (o : OpR)
  /-- ZXT_W (R259). -/
  | zxtW (o : OpR)
  /-- ADDI (R260). -/
  | addi (o : OpI)
  /-- ANDI (R260). -/
  | andi (o : OpI)
  /-- ORI (R260). -/
  | ori (o : OpI)
  /-- XORI (R260). -/
  | xori (o : OpI)
  /-- SLTI (R260). -/
  | slti (o : OpI)
  /-- BFX (R261). -/
  | bfx (o : OpBf)
  /-- BFX_S (R261). -/
  | bfxS (o : OpBf)
  /-- BFI (R261). -/
  | bfi (o : OpBf)
  /-- LIH (R236). -/
  | lih (o : OpU)
  /-- ADDPC (R236). -/
  | addpc (o : OpU)
  /-- BEQ (R263). -/
  | beq (o : OpB)
  /-- BNE (R263). -/
  | bne (o : OpB)
  /-- BLT (R263). -/
  | blt (o : OpB)
  /-- BGE (R263). -/
  | bge (o : OpB)
  /-- BLTU (R263). -/
  | bltu (o : OpB)
  /-- BGEU (R263). -/
  | bgeu (o : OpB)
  /-- BQE (R264). -/
  | bqe (o : OpBx)
  /-- BPA (R264). -/
  | bpa (o : OpBx)
  /-- BPN (R264). -/
  | bpn (o : OpBx)
  /-- LOOP (R264). -/
  | loop (o : OpBx)
  /-- JMP (R265). -/
  | jmp (o : OpJ)
  /-- CALL (R242). -/
  | call (o : OpJ)
  /-- JMPR (R265). -/
  | jmpr (o : OpR)
  /-- CALLR (R242). -/
  | callr (o : OpR)
  /-- RET (R242). -/
  | ret (o : OpR)
  /-- ENTER (R242). -/
  | enter (o : OpR)
  /-- LEAVE (R242). -/
  | leave (o : OpR)
  /-- PAND (R266). -/
  | pand (o : OpR)
  /-- POR (R266). -/
  | por (o : OpR)
  /-- PXOR (R266). -/
  | pxor (o : OpR)
  /-- PNOT (R266). -/
  | pnot (o : OpR)
  /-- PCNT (R266). -/
  | pcnt (o : OpR)
  /-- PSETI (R266). -/
  | pseti (o : OpPset)
  /-- LDF (R270). -/
  | ldf (o : OpR)
  /-- LDF_C (R270). -/
  | ldfC (o : OpR)
  /-- STE (R270). -/
  | ste (o : OpR)
  /-- FESET_F (R270). -/
  | fesetF (o : OpR)
  /-- FESET_E (R270). -/
  | fesetE (o : OpR)
  /-- FEQRY (R270). -/
  | feqry (o : OpR)
  /-- PREF (R274). -/
  | pref (o : OpR)
  /-- VLD (R272). -/
  | vld (o : OpR)
  /-- VST (R272). -/
  | vst (o : OpR)
  /-- VLDST (R272). -/
  | vldst (o : OpR)
  /-- VGATH (R273). -/
  | vgath (o : OpR)
  /-- VSCAT (R273). -/
  | vscat (o : OpR)
  /-- STBM (R276). -/
  | stbm (o : OpR)
  /-- LDBM (R277). -/
  | ldbm (o : OpR)
  /-- FENCE (R167). -/
  | fence (o : OpR)
  /-- FENCEQ (R283). -/
  | fenceq (o : OpR)
  /-- SYNCI (R343). -/
  | synci (o : OpR)
  /-- PREF_S (R274). -/
  | prefS (o : OpR)
  /-- VLD_S (R272). -/
  | vldS (o : OpR)
  /-- VST_S (R272). -/
  | vstS (o : OpR)
  /-- VLDST_S (R272). -/
  | vldstS (o : OpR)
  /-- VGATH_S (R273). -/
  | vgathS (o : OpR)
  /-- VSCAT_S (R273). -/
  | vscatS (o : OpR)
  /-- STBM_S (R276). -/
  | stbmS (o : OpR)
  /-- LDBM_S (R277). -/
  | ldbmS (o : OpR)
  /-- AMO_ADD_W (R279). -/
  | amoAddW (o : OpR)
  /-- AMO_MIN_W (R279). -/
  | amoMinW (o : OpR)
  /-- AMO_MAX_W (R279). -/
  | amoMaxW (o : OpR)
  /-- AMO_MINU_W (R279). -/
  | amoMinuW (o : OpR)
  /-- AMO_MAXU_W (R279). -/
  | amoMaxuW (o : OpR)
  /-- AMO_AND_W (R279). -/
  | amoAndW (o : OpR)
  /-- AMO_OR_W (R279). -/
  | amoOrW (o : OpR)
  /-- AMO_XOR_W (R279). -/
  | amoXorW (o : OpR)
  /-- AMO_SWAP_W (R279). -/
  | amoSwapW (o : OpR)
  /-- AMO_FADD_F32 (R279). -/
  | amoFaddF32 (o : OpR)
  /-- AMO_FADD_BF16 (R279). -/
  | amoFaddBf16 (o : OpR)
  /-- CAS_W (R279). -/
  | casW (o : OpR)
  /-- AMAXRST_W (R279). -/
  | amaxrstW (o : OpR)
  /-- AMO_ADD_W_S (R279). -/
  | amoAddWS (o : OpR)
  /-- AMO_MIN_W_S (R279). -/
  | amoMinWS (o : OpR)
  /-- AMO_MAX_W_S (R279). -/
  | amoMaxWS (o : OpR)
  /-- AMO_MINU_W_S (R279). -/
  | amoMinuWS (o : OpR)
  /-- AMO_MAXU_W_S (R279). -/
  | amoMaxuWS (o : OpR)
  /-- AMO_AND_W_S (R279). -/
  | amoAndWS (o : OpR)
  /-- AMO_OR_W_S (R279). -/
  | amoOrWS (o : OpR)
  /-- AMO_XOR_W_S (R279). -/
  | amoXorWS (o : OpR)
  /-- AMO_SWAP_W_S (R279). -/
  | amoSwapWS (o : OpR)
  /-- AMO_FADD_F32_S (R279). -/
  | amoFaddF32S (o : OpR)
  /-- AMO_FADD_BF16_S (R279). -/
  | amoFaddBf16S (o : OpR)
  /-- CAS_W_S (R279). -/
  | casWS (o : OpR)
  /-- AMAXRST_W_S (R279). -/
  | amaxrstWS (o : OpR)
  /-- AMO_ADD_D (R279). -/
  | amoAddD (o : OpR)
  /-- AMO_MIN_D (R279). -/
  | amoMinD (o : OpR)
  /-- AMO_MAX_D (R279). -/
  | amoMaxD (o : OpR)
  /-- AMO_MINU_D (R279). -/
  | amoMinuD (o : OpR)
  /-- AMO_MAXU_D (R279). -/
  | amoMaxuD (o : OpR)
  /-- AMO_AND_D (R279). -/
  | amoAndD (o : OpR)
  /-- AMO_OR_D (R279). -/
  | amoOrD (o : OpR)
  /-- AMO_XOR_D (R279). -/
  | amoXorD (o : OpR)
  /-- AMO_SWAP_D (R279). -/
  | amoSwapD (o : OpR)
  /-- CAS_D (R279). -/
  | casD (o : OpR)
  /-- AMAXRST_D (R279). -/
  | amaxrstD (o : OpR)
  /-- AMO_ADD_D_S (R279). -/
  | amoAddDS (o : OpR)
  /-- AMO_MIN_D_S (R279). -/
  | amoMinDS (o : OpR)
  /-- AMO_MAX_D_S (R279). -/
  | amoMaxDS (o : OpR)
  /-- AMO_MINU_D_S (R279). -/
  | amoMinuDS (o : OpR)
  /-- AMO_MAXU_D_S (R279). -/
  | amoMaxuDS (o : OpR)
  /-- AMO_AND_D_S (R279). -/
  | amoAndDS (o : OpR)
  /-- AMO_OR_D_S (R279). -/
  | amoOrDS (o : OpR)
  /-- AMO_XOR_D_S (R279). -/
  | amoXorDS (o : OpR)
  /-- AMO_SWAP_D_S (R279). -/
  | amoSwapDS (o : OpR)
  /-- CAS_D_S (R279). -/
  | casDS (o : OpR)
  /-- AMAXRST_D_S (R279). -/
  | amaxrstDS (o : OpR)
  /-- LD_B (R268). -/
  | ldB (o : OpM)
  /-- LD_H (R268). -/
  | ldH (o : OpM)
  /-- LD_W (R268). -/
  | ldW (o : OpM)
  /-- LD_D (R268). -/
  | ldD (o : OpM)
  /-- ST_B (R268). -/
  | stB (o : OpM)
  /-- ST_H (R268). -/
  | stH (o : OpM)
  /-- ST_W (R268). -/
  | stW (o : OpM)
  /-- ST_D (R268). -/
  | stD (o : OpM)
  /-- LDS_B (R268). -/
  | ldsB (o : OpM)
  /-- LDS_H (R268). -/
  | ldsH (o : OpM)
  /-- LDS_W (R268). -/
  | ldsW (o : OpM)
  /-- LDS_D (R268). -/
  | ldsD (o : OpM)
  /-- STS_B (R268). -/
  | stsB (o : OpM)
  /-- STS_H (R268). -/
  | stsH (o : OpM)
  /-- STS_W (R268). -/
  | stsW (o : OpM)
  /-- STS_D (R268). -/
  | stsD (o : OpM)
  /-- VADD_F32 (R300). -/
  | vaddF32 (o : OpR)
  /-- VSUB_F32 (R300). -/
  | vsubF32 (o : OpR)
  /-- VMUL_F32 (R300). -/
  | vmulF32 (o : OpR)
  /-- VFMA_F32 (R301). -/
  | vfmaF32 (o : OpR)
  /-- VFMS_F32 (R301). -/
  | vfmsF32 (o : OpR)
  /-- VMIN_F32 (R302). -/
  | vminF32 (o : OpR)
  /-- VMAX_F32 (R302). -/
  | vmaxF32 (o : OpR)
  /-- VABS_F32 (R302). -/
  | vabsF32 (o : OpR)
  /-- VNEG_F32 (R302). -/
  | vnegF32 (o : OpR)
  /-- VCMP_EQ_F32 (R303). -/
  | vcmpEqF32 (o : OpR)
  /-- VCMP_NE_F32 (R303). -/
  | vcmpNeF32 (o : OpR)
  /-- VCMP_LT_F32 (R303). -/
  | vcmpLtF32 (o : OpR)
  /-- VCMP_LE_F32 (R303). -/
  | vcmpLeF32 (o : OpR)
  /-- VRED_ADD_F32 (R305). -/
  | vredAddF32 (o : OpR)
  /-- VRED_MAX_F32 (R305). -/
  | vredMaxF32 (o : OpR)
  /-- VRED_MIN_F32 (R305). -/
  | vredMinF32 (o : OpR)
  /-- VSCAN_ADD_F32 (R306). -/
  | vscanAddF32 (o : OpR)
  /-- VRCP (R307). -/
  | vrcp (o : OpR)
  /-- VRSQ (R307). -/
  | vrsq (o : OpR)
  /-- VSQRT (R307). -/
  | vsqrt (o : OpR)
  /-- VEXP2 (R307). -/
  | vexp2 (o : OpR)
  /-- VLOG2 (R307). -/
  | vlog2 (o : OpR)
  /-- VTANH (R307). -/
  | vtanh (o : OpR)
  /-- VSCALE_F32 (R308). -/
  | vscaleF32 (o : OpR)
  /-- VSCALE_I32 (R308). -/
  | vscaleI32 (o : OpR)
  /-- VADD_I32 (R304). -/
  | vaddI32 (o : OpR)
  /-- VSUB_I32 (R304). -/
  | vsubI32 (o : OpR)
  /-- VMUL_I32 (R304). -/
  | vmulI32 (o : OpR)
  /-- VMIN_I32 (R304). -/
  | vminI32 (o : OpR)
  /-- VMAX_I32 (R304). -/
  | vmaxI32 (o : OpR)
  /-- VMIN_U32 (R304). -/
  | vminU32 (o : OpR)
  /-- VMAX_U32 (R304). -/
  | vmaxU32 (o : OpR)
  /-- VABS_I32 (R304). -/
  | vabsI32 (o : OpR)
  /-- VNEG_I32 (R304). -/
  | vnegI32 (o : OpR)
  /-- VAND (R304). -/
  | vand (o : OpR)
  /-- VOR (R304). -/
  | vor (o : OpR)
  /-- VXOR (R304). -/
  | vxor (o : OpR)
  /-- VNOT (R304). -/
  | vnot (o : OpR)
  /-- VSHL (R304). -/
  | vshl (o : OpR)
  /-- VSHR (R304). -/
  | vshr (o : OpR)
  /-- VSRA (R304). -/
  | vsra (o : OpR)
  /-- VCMP_EQ_I32 (R303). -/
  | vcmpEqI32 (o : OpR)
  /-- VCMP_NE_I32 (R303). -/
  | vcmpNeI32 (o : OpR)
  /-- VCMP_LT_I32 (R303). -/
  | vcmpLtI32 (o : OpR)
  /-- VCMP_LE_I32 (R303). -/
  | vcmpLeI32 (o : OpR)
  /-- VCMP_LTU_I32 (R303). -/
  | vcmpLtuI32 (o : OpR)
  /-- VCMP_LEU_I32 (R303). -/
  | vcmpLeuI32 (o : OpR)
  /-- VRED_ADD_I32 (R305). -/
  | vredAddI32 (o : OpR)
  /-- VRED_MAX_I32 (R305). -/
  | vredMaxI32 (o : OpR)
  /-- VRED_MIN_I32 (R305). -/
  | vredMinI32 (o : OpR)
  /-- VSCAN_ADD_I32 (R306). -/
  | vscanAddI32 (o : OpR)
  /-- VSEL (R309). -/
  | vsel (o : OpR)
  /-- VMOV (R309). -/
  | vmov (o : OpR)
  /-- VBCAST (R309). -/
  | vbcast (o : OpR)
  /-- VEXTR (R309). -/
  | vextr (o : OpR)
  /-- VINS (R309). -/
  | vins (o : OpR)
  /-- VPERM (R310). -/
  | vperm (o : OpR)
  /-- VSHUF (R310). -/
  | vshuf (o : OpR)
  /-- VCOMP (R311). -/
  | vcomp (o : OpR)
  /-- VEXPD (R311). -/
  | vexpd (o : OpR)
  /-- VCVT (R312). -/
  | vcvt (o : OpR)
  /-- VLUT (R315). -/
  | vlut (o : OpR)
  /-- KLD_E4M3 (R314). -/
  | kldE4m3 (o : OpR)
  /-- KLD_BF16 (R314). -/
  | kldBf16 (o : OpR)
  /-- VQDEC (R316). -/
  | vqdec (o : OpR)
  /-- VDOT4_I8 (R317). -/
  | vdot4I8 (o : OpR)
  /-- VDOT4_E4M3 (R317). -/
  | vdot4E4m3 (o : OpR)
  /-- QBIND (R285). -/
  | qbind (o : OpR)
  /-- QBINDC (R288). -/
  | qbindc (o : OpR)
  /-- QFREE (R296). -/
  | qfree (o : OpR)
  /-- QSTAT (R292). -/
  | qstat (o : OpR)
  /-- QPEEK (R293). -/
  | qpeek (o : OpR)
  /-- QSKIP (R294). -/
  | qskip (o : OpR)
  /-- QEMIT (R290). -/
  | qemit (o : OpR)
  /-- QSEEK (R295). -/
  | qseek (o : OpR)
  /-- TSPAWN (R320). -/
  | tspawn (o : OpR)
  /-- TSPAWNG (R320). -/
  | tspawng (o : OpR)
  /-- TEND (R321). -/
  | tend (o : OpR)
  /-- TABORT (R322). -/
  | tabort (o : OpR)
  /-- FUTRES (R325). -/
  | futres (o : OpR)
  /-- FUTREG (R325). -/
  | futreg (o : OpR)
  /-- FUTJOIN (R326). -/
  | futjoin (o : OpR)
  /-- GJOIN (R329). -/
  | gjoin (o : OpR)
  /-- GLEAVE (R329). -/
  | gleave (o : OpR)
  /-- GARR (R329). -/
  | garr (o : OpR)
  /-- GWAIT (R329). -/
  | gwait (o : OpR)
  /-- BARINIT (R330). -/
  | barinit (o : OpR)
  /-- BARARR (R330). -/
  | bararr (o : OpR)
  /-- BAREXP (R330). -/
  | barexp (o : OpR)
  /-- BARWAIT (R330). -/
  | barwait (o : OpR)
  /-- RAWAIT (R331). -/
  | rawait (o : OpR)
  /-- RREL (R331). -/
  | rrel (o : OpR)
  /-- RPOLL (R331). -/
  | rpoll (o : OpR)
  /-- CPY (R332). -/
  | cpy (o : OpR)
  /-- CPYQ (R333). -/
  | cpyq (o : OpR)
  /-- CPYF (R332). -/
  | cpyf (o : OpR)
  /-- MSEND (R334). -/
  | msend (o : OpR)
  /-- MXOP (R335). -/
  | mxop (o : OpR)
  /-- CFGW (R336). -/
  | cfgw (o : OpR)
  /-- CFGS (R336). -/
  | cfgs (o : OpR)
  /-- GSTART (R337). -/
  | gstart (o : OpR)
  /-- GFRZ (R390). -/
  | gfrz (o : OpR)
  /-- GTHAW (R393). -/
  | gthaw (o : OpR)
  /-- JCANCEL (R338). -/
  | jcancel (o : OpR)
  /-- GFRZ_ROUND (R392). -/
  | gfrzRound (o : OpR)
  /-- TRAP (R339). -/
  | trap (o : OpR)
  /-- ERET (R401). -/
  | eret (o : OpR)
  /-- MFS (R340). -/
  | mfs (o : OpR)
  /-- MTS (R340). -/
  | mts (o : OpR)
  /-- WFE (R341). -/
  | wfe (o : OpR)
  /-- SEV (R341). -/
  | sev (o : OpR)
  /-- BRK (R339). -/
  | brk (o : OpR)
  /-- NOP (R340). -/
  | nop (o : OpR)
  /-- TLBINV_ALL (R342). -/
  | tlbinvAll (o : OpR)
  /-- TLBINV_VA (R342). -/
  | tlbinvVa (o : OpR)
  /-- TLBINV_RNG (R342). -/
  | tlbinvRng (o : OpR)
  /-- CINV (R343). -/
  | cinv (o : OpR)
  /-- CWB (R343). -/
  | cwb (o : OpR)
  /-- IDLE (R341). -/
  | idle (o : OpR)
  /-- POSTED_ATOMIC_PERFORMED (R280). -/
  | postedAtomicPerformed (cid : Nat)
  /-- PATTERN_READAHEAD (R287). -/
  | patternReadahead (cid : Nat) (port : Nat)
  /-- PORT_STALL_RESUME (R239). -/
  | portStallResume (cid : Nat)
  /-- LDF_RETRY (R48). -/
  | ldfRetry (cid : Nat)
  /-- BARWAIT_RELEASE (R330). -/
  | barwaitRelease (cid : Nat)
  /-- RAWAIT_RELEASE (R331). -/
  | rawaitRelease (cid : Nat)
  /-- GWAIT_RELEASE (R329). -/
  | gwaitRelease (cid : Nat)
  /-- WFE_WAKE (R341). -/
  | wfeWake (cid : Nat)
  /-- WFE_TIMEOUT (R341). -/
  | wfeTimeout (cid : Nat)
  /-- IDLE_EXPIRE (R341). -/
  | idleExpire (cid : Nat)
  /-- FRONTIER_REACHED (R186). -/
  | frontierReached (cid : Nat)
  /-- DEFERRED_FAULT_DELIVERY (R207). -/
  | deferredFaultDelivery (cid : Nat)
  /-- JOURNAL_CHUNK_WAIT_TIMEOUT (R206). -/
  | journalChunkWaitTimeout (cid : Nat)
  /-- TS_COMMIT (R204). -/
  | tsCommit (dom : Nat)
  /-- TS_COMMIT_COMPLETE (R182). -/
  | tsCommitComplete (dom : Nat)
  /-- TASK_START (R193). -/
  | taskStart (cid : Nat)
  /-- DISPATCHER_TAKE_PACKET (R211). -/
  | dispatcherTakePacket (queue : Nat)
  /-- DISPATCH_SELECT (R216). -/
  | dispatchSelect (die : Nat)
  /-- HEAD_AGING (R216). -/
  | headAging (die : Nat) (queue : Nat)
  /-- RESIDENT_HEAD_RELEASE (R214). -/
  | residentHeadRelease (die : Nat) (queue : Nat)
  /-- GANG_TIMEOUT (R218). -/
  | gangTimeout (die : Nat) (queue : Nat)
  /-- PIPELINE_REBALANCE (R219). -/
  | pipelineRebalance (die : Nat)
  /-- SITE_ARBITER_PERIOD (R221). -/
  | siteArbiterPeriod (site : Nat)
  /-- JCANCEL_LINEARISE (R223). -/
  | jcancelLinearise (die : Nat)
  /-- CANCEL_KILL_TIMEOUT (R223). -/
  | cancelKillTimeout (cid : Nat)
  /-- JCANCEL_COMPLETE (R338). -/
  | jcancelComplete
  /-- WALK_COMPLETE (R31). -/
  | walkComplete (die : Nat)
  /-- ICACHE_MISS_FILL (R66). -/
  | icacheMissFill (core : Nat) (va : W64) (bad : Bool)
  /-- BANK_PORT_REQUEST (R41). -/
  | bankPortRequest (bank : Nat) (portF : Bool)
  /-- RMW_ATOMIC (R53). -/
  | rmwAtomic (bank : Nat) (portF : Bool)
  /-- RMW_ATOMIC_COMPLETE (R53). -/
  | rmwAtomicComplete (bank : Nat)
  /-- BANK_SCRUB (R43). -/
  | bankScrub (word : Nat) (err : EccKind)
  /-- ATOMIC_ENGINE_PICK (R55). -/
  | atomicEnginePick (cluster : Nat)
  /-- ATOMIC_ENGINE_LINE_FILL (R55). -/
  | atomicEngineLineFill (cluster : Nat) (line : Nat)
  /-- ATOMIC_ENGINE_RECALL (R56). -/
  | atomicEngineRecall (line : Nat)
  /-- HOST_SNOOP (R57). -/
  | hostSnoop (line : Nat)
  /-- PEER_ACCESS_SERVE (R15). -/
  | peerAccessServe (acc : PeerAcc)
  /-- COPY_QUEUE_TAKE (R124). -/
  | copyQueueTake (eng : Nat) (queue : Nat)
  /-- COPY_QUEUE_STALL (R125). -/
  | copyQueueStall (eng : Nat) (queue : Nat)
  /-- FENCE_COPY_START (R129). -/
  | fenceCopyStart (eng : Nat) (copy : Nat)
  /-- COPY_TRANSFER (R132). -/
  | copyTransfer (eng : Nat) (copy : Nat)
  /-- COPY_SEGMENT_COMPLETE (R144). -/
  | copySegmentComplete (eng : Nat) (copy : Nat) (seg : Nat)
  /-- COPY_COMPLETE (R137). -/
  | copyComplete (eng : Nat) (copy : Nat)
  /-- RING_PUSH_RETRY (R140). -/
  | ringPushRetry (eng : Nat) (copy : Nat)
  /-- RING_RECORD_ACK (R140). -/
  | ringRecordAck (ring : Nat) (slot : Nat)
  /-- BARRIER_UPDATE (R145). -/
  | barrierUpdate (obj : Nat)
  /-- CONTROL_TOKEN_ARRIVE (R147). -/
  | controlTokenArrive (tok : CtlTok)
  /-- CQTAB_WRITE (R121). -/
  | cqtabWrite (v : W64)
  /-- TQTAB_WRITE (R212). -/
  | tqtabWrite (v : W64)
  /-- PTROOT_WRITE (R22). -/
  | ptrootWrite (v : W64)
  /-- DOMCFG_WRITE (R198). -/
  | domcfgWrite (dom : Nat) (v : W64)
  /-- REGISTER_WRITE (R6). -/
  | registerWrite (off : Nat) (v : W64)
  /-- CFG_STREAM_APPLY (R350). -/
  | cfgStreamApply (cid : Nat)
  /-- CFG_WORD_APPLY (R347). -/
  | cfgWordApply (cid : Nat)
  /-- PARAM_BLOCK_READ (R348). -/
  | paramBlockRead (key : Nat)
  /-- START_TOKEN_ARRIVE (R354). -/
  | startTokenArrive (key : Nat)
  /-- SKIP_RECEIVED (R100). -/
  | skipReceived (key : Nat)
  /-- SCN_FIRE (R359). -/
  | scnFire (key : Nat)
  /-- ISX_FIRE (R360). -/
  | isxFire (key : Nat)
  /-- UNI_FIRE (R361). -/
  | uniFire (key : Nat)
  /-- RPT_FIRE (R362). -/
  | rptFire (key : Nat)
  /-- RED_FIRE (R363). -/
  | redFire (key : Nat)
  /-- VRD_FIRE (R364). -/
  | vrdFire (key : Nat)
  /-- CMB_FIRE (R365). -/
  | cmbFire (key : Nat)
  /-- LWR_FIRE (R367). -/
  | lwrFire (key : Nat)
  /-- ROW_FIRE (R370). -/
  | rowFire (key : Nat)
  /-- MEMOP_FIRE (R373). -/
  | memopFire (key : Nat)
  /-- JOIN_FIRE (R377). -/
  | joinFire (key : Nat)
  /-- PERIOD_COMPLETION (R355). -/
  | periodCompletion (key : Nat)
  /-- MADDER_BAND_DECODE (R111). -/
  | madderBandDecode (key : Nat)
  /-- MATRIX_OP_FIRE (R382). -/
  | matrixOpFire (key : Nat)
  /-- MATRIX_CHUNK_COMPLETE (R382). -/
  | matrixChunkComplete (key : Nat)
  /-- DRAIN_COMPLETE (R387). -/
  | drainComplete (key : Nat)
  /-- MXOP_MMA (R389). -/
  | mxopMma (key : Nat)
  /-- MXOP_DRAIN (R389). -/
  | mxopDrain (key : Nat)
  /-- MXOP_ZERO (R389). -/
  | mxopZero (key : Nat)
  /-- ROUND_MARKER_RECEIVE (R392). -/
  | roundMarkerReceive (key : Nat)
  /-- GRAPH_FREEZE_COMPLETE (R390). -/
  | graphFreezeComplete (base : Nat)
  /-- CIRCUIT_SOURCE_SEND (R426). -/
  | circuitSourceSend (circ : Nat)
  /-- CIRCUIT_FLUSH_TIMER (R426). -/
  | circuitFlushTimer (circ : Nat)
  /-- CIRCUIT_PACKET_ARRIVE (R426). -/
  | circuitPacketArrive (circ : Nat) (seq : Nat) (toks : List Token)
  /-- ACTIVE_MESSAGE_ARRIVE (R334). -/
  | activeMessageArrive (msg : Message)
  /-- FAULT_RECORD_ALLOC (R397). -/
  | faultRecordAlloc (die : Nat)
  /-- FAULT_TASK_LAUNCH (R401). -/
  | faultTaskLaunch (die : Nat) (rec : Nat)
  /-- FRCMD_RESUME (R404). -/
  | frcmdResume (die : Nat) (rec : Nat)
  /-- FRCMD_ABANDON (R151). -/
  | frcmdAbandon (die : Nat) (rec : Nat)
  /-- FRCMD_RELEASE (R401). -/
  | frcmdRelease (die : Nat) (rec : Nat)
  /-- UNITCTL_DRAIN (R405). -/
  | unitctlDrain (die : Nat) (site : Nat)
  /-- UNITCTL_FENCE (R407). -/
  | unitctlFence (die : Nat) (site : Nat)
  /-- UNITCTL_UNFENCE (R405). -/
  | unitctlUnfence (die : Nat) (site : Nat)
  /-- JCTL_SAVE (R406). -/
  | jctlSave
  /-- JCTL_RESTORE (R406). -/
  | jctlRestore
  /-- UNIT_FAILURE_DETECT (R407). -/
  | unitFailureDetect (die : Nat) (site : Nat)
  /-- MIRROR_POINT (R410). -/
  | mirrorPoint
  /-- MIRROR_POINT_ACK (R410). -/
  | mirrorPointAck
  /-- BUDDY_WRITE (R410). -/
  | buddyWrite (v : W64)
  /-- PACKAGE_LOSS_RECOVERY (R411). -/
  | packageLossRecovery (pkg : Nat)
  /-- ECNT_READ (R403). -/
  | ecntRead (die : Nat)
  /-- LNKST_READ (R424). -/
  | lnkstRead (port : Nat)
  /-- HSEM_CAS (R415). -/
  | hsemCas (who : RegParty) (expected : W32) (new : W32)
  /-- HOST_BAR_ACCESS (R413). -/
  | hostBarAccess (acc : HostAcc)
  /-- HNOTE_WRITE (R417). -/
  | hnoteWrite (v : W64)
  /-- PKGID_WRITE (R418). -/
  | pkgidWrite (v : W64)
  /-- BOOT_GO (R428). -/
  | bootGo
  /-- PWRCTL_RUN (R429). -/
  | pwrctlRun
  /-- PWRCTL_STANDBY (R429). -/
  | pwrctlStandby
  /-- PWRCTL_OFF (R429). -/
  | pwrctlOff
  /-- POWER_THROTTLE (R430). -/
  | powerThrottle (watts : Nat)
  /-- CXL_MEM_ACCESS (R414). -/
  | cxlMemAccess (acc : HostAcc)
  /-- CXL_REQUEST_TIMEOUT (R414). -/
  | cxlRequestTimeout (req : Nat)
  /-- HOST_LINK_DOWN (R415). -/
  | hostLinkDown (port : Nat)
  /-- PACKET_HOP (R422). -/
  | packetHop (pkt : Nat)
  /-- PACKET_ARRIVE (R421). -/
  | packetArrive (port : Nat) (pkt : Packet)
  /-- FLIT_CRC_REPLAY (R424). -/
  | flitCrcReplay (port : Nat)
  /-- LANE_FAIL_RESTRIPE (R424). -/
  | laneFailRestripe (port : Nat)
  /-- POWER_ON_RESET (R427). -/
  | powerOnReset (fuses : List (Nat × Nat))
  /-- HBM_TRAINING_DONE (R427). -/
  | hbmTrainingDone
  /-- LINK_TRAINED (R427). -/
  | linkTrained (port : Nat) (lanes : Nat)
  /-- LOADER_LOAD_OBJECT (R252): an object, and the objects of its job that follow it in the load order. -/
  | loaderLoadObject (obj : CodeObject)
  /-- MOLROUG_EMBED (R255): a module, the objects of its job that follow it, and the physical site of each virtual one. -/
  | molrougEmbed (obj : CodeObject) (sites : List (Nat × Nat))
  /-- ILLEGAL_INSTRUCTION (R234). -/
  | illegalInstruction (w : W32) (second : W32)
  /-- MEMORY_SIDE_CACHE_ACCESS (R63), and the soft errors of lines (R68). -/
  | memorySideCacheAccess (acc : LineAcc)
  /-- CXL_REQUEST_COMPLETION (R414). -/
  | cxlRequestCompletion (req : Nat) (ok : Bool)
  /-- BISNP_RESPONSE (R414). -/
  | bisnpResponse (die : Nat)
  /-- HOST_LINK_UP (R427). -/
  | hostLinkUp (port : Nat)
  /-- HSEM_READ (R6). -/
  | hsemRead
  /-- CIRCUIT_ACKNOWLEDGEMENT (R426). -/
  | circuitAcknowledgement (circ : Nat) (seq : Nat)
  /-- GRAPH_THAW_COMPLETE (R393). -/
  | graphThawComplete (base : Nat)
deriving DecidableEq, Repr

end Sys2Proof
end

