-- ==== Sys2Proof/Decode.lean ====
section
/-! DEFINITION. Decoding of instruction words (spec/08 R229-R236, Tables 8-5 to 8-8) and, after it, the encoder.
Operand classes (R225) and the X fields an instruction accepts (R232) are checked when it executes, where they raise
ILLEGAL before anything else; a word that is no instruction is refused here by name, and step makes it the
ILLEGAL_INSTRUCTION row. -/

namespace Sys2Proof

/-- Why a word is no instruction. Each raises ILLEGAL (R230, R233-R236). -/
inductive Reject where
  | noMajor      -- a major opcode marked unassigned (R234)
  | noFunction   -- an fn, selector or subfield value that Table 8-8 or R236 does not list
  | unusedField  -- a nonzero unused field (R230)
  | badPair      -- an X word before a word that accepts none (R233)
  | noBytes      -- fewer bytes than the instruction has
deriving DecidableEq, Repr

/-- The fields of an R or V word (Table 8-5). -/
structure Fld where
  op : BitVec 6
  d : BitVec 6
  a : BitVec 6
  b : BitVec 6
  p : BitVec 3
  fn : BitVec 5
deriving DecidableEq, Repr

/-- Fields of a word read as R or V (Table 8-5). -/
def unpackR (w : W32) : Fld :=
  { op := w.extractLsb' 26 6, d := w.extractLsb' 20 6, a := w.extractLsb' 14 6, b := w.extractLsb' 8 6,
    p := w.extractLsb' 5 3, fn := w.extractLsb' 0 5 }

/-- The X extension as an R or V word reads it (Table 8-6). -/
def xwOf (ext : Option (BitVec 26)) : XW :=
  match ext with
  | none => XW.none
  | some e => { has := true, rm := e.extractLsb' 0 3, scp := e.extractLsb' 3 3, ord := e.extractLsb' 6 2,
                neg := e.extractLsb' 8 1 == 1#1, ximm := e.extractLsb' 9 17 }

/-- An instruction, where the fields it does not use are 0 (R230). -/
def whenZero (c : Bool) (i : Instr) : Except Reject Instr := if c then .ok i else .error .unusedField

/-- Major 0x00 by fn (Table 8-8). -/
def decAlu (f : Fld) (x : XW) : Except Reject Instr :=
  match f.fn with
  | 1 => .ok (.add { d := f.d, a := f.a, b := f.b, p := f.p, x := x })
  | 2 => .ok (.sub { d := f.d, a := f.a, b := f.b, p := f.p, x := x })
  | 3 => .ok (.mul { d := f.d, a := f.a, b := f.b, p := f.p, x := x })
  | 4 => .ok (.mulhi { d := f.d, a := f.a, b := f.b, p := f.p, x := x })
  | 5 => .ok (.mulhiu { d := f.d, a := f.a, b := f.b, p := f.p, x := x })
  | 6 => .ok (.div { d := f.d, a := f.a, b := f.b, p := f.p, x := x })
  | 7 => .ok (.divu { d := f.d, a := f.a, b := f.b, p := f.p, x := x })
  | 8 => .ok (.rem { d := f.d, a := f.a, b := f.b, p := f.p, x := x })
  | 9 => .ok (.remu { d := f.d, a := f.a, b := f.b, p := f.p, x := x })
  | 10 => .ok (.and { d := f.d, a := f.a, b := f.b, p := f.p, x := x })
  | 11 => .ok (.or { d := f.d, a := f.a, b := f.b, p := f.p, x := x })
  | 12 => .ok (.xor { d := f.d, a := f.a, b := f.b, p := f.p, x := x })
  | 13 => .ok (.shl { d := f.d, a := f.a, b := f.b, p := f.p, x := x })
  | 14 => .ok (.shr { d := f.d, a := f.a, b := f.b, p := f.p, x := x })
  | 15 => .ok (.sra { d := f.d, a := f.a, b := f.b, p := f.p, x := x })
  | 16 => .ok (.shli { d := f.d, a := f.a, b := f.b, p := f.p, x := x })
  | 17 => .ok (.shri { d := f.d, a := f.a, b := f.b, p := f.p, x := x })
  | 18 => .ok (.srai { d := f.d, a := f.a, b := f.b, p := f.p, x := x })
  | 19 => .ok (.slt { d := f.d, a := f.a, b := f.b, p := f.p, x := x })
  | 20 => .ok (.sltu { d := f.d, a := f.a, b := f.b, p := f.p, x := x })
  | 21 => .ok (.min { d := f.d, a := f.a, b := f.b, p := f.p, x := x })
  | 22 => .ok (.max { d := f.d, a := f.a, b := f.b, p := f.p, x := x })
  | 23 => .ok (.minu { d := f.d, a := f.a, b := f.b, p := f.p, x := x })
  | 24 => .ok (.maxu { d := f.d, a := f.a, b := f.b, p := f.p, x := x })
  | 25 => .ok (.sel { d := f.d, a := f.a, b := f.b, p := f.p, x := x })
  | 26 => .ok (.lea0 { d := f.d, a := f.a, b := f.b, p := f.p, x := x })
  | 27 => .ok (.lea1 { d := f.d, a := f.a, b := f.b, p := f.p, x := x })
  | 28 => .ok (.lea2 { d := f.d, a := f.a, b := f.b, p := f.p, x := x })
  | 29 => .ok (.lea3 { d := f.d, a := f.a, b := f.b, p := f.p, x := x })
  | 30 =>
    match f.b with
    | 0 => .ok (.clz { d := f.d, a := f.a, b := 0, p := f.p, x := x })
    | 1 => .ok (.ctz { d := f.d, a := f.a, b := 0, p := f.p, x := x })
    | 2 => .ok (.popc { d := f.d, a := f.a, b := 0, p := f.p, x := x })
    | 3 => .ok (.sxtB { d := f.d, a := f.a, b := 0, p := f.p, x := x })
    | 4 => .ok (.sxtH { d := f.d, a := f.a, b := 0, p := f.p, x := x })
    | 5 => .ok (.sxtW { d := f.d, a := f.a, b := 0, p := f.p, x := x })
    | 6 => .ok (.zxtB { d := f.d, a := f.a, b := 0, p := f.p, x := x })
    | 7 => .ok (.zxtH { d := f.d, a := f.a, b := 0, p := f.p, x := x })
    | 8 => .ok (.zxtW { d := f.d, a := f.a, b := 0, p := f.p, x := x })
    | _ => .error .noFunction
  | _ => .error .noFunction

/-- Major 0x12 by fn (Table 8-8). -/
def decCtl (f : Fld) (x : XW) : Except Reject Instr :=
  match f.fn with
  | 0 => whenZero (f.d == 0 && f.b == 0) (.jmpr { d := 0, a := f.a, b := 0, p := f.p, x := x })
  | 1 => whenZero (f.d == 0 && f.b == 0) (.callr { d := 0, a := f.a, b := 0, p := f.p, x := x })
  | 2 => whenZero (f.d == 0 && f.a == 0 && f.b == 0) (.ret { d := 0, a := 0, b := 0, p := f.p, x := x })
  | 3 =>
    if 1 ≤ f.b.toNat ∧ f.b.toNat ≤ 5 then whenZero (f.d == 0 && f.a == 0) (.enter { d := 0, a := 0, b := f.b, p := f.p, x := x })
    else .error .noFunction
  | 4 => whenZero (f.d == 0 && f.a == 0 && f.b == 0) (.leave { d := 0, a := 0, b := 0, p := f.p, x := x })
  | _ => .error .noFunction

/-- Major 0x13 by fn (Table 8-8). -/
def decPred (f : Fld) (x : XW) : Except Reject Instr :=
  match f.fn with
  | 0 => .ok (.pand { d := f.d, a := f.a, b := f.b, p := f.p, x := x })
  | 1 => .ok (.por { d := f.d, a := f.a, b := f.b, p := f.p, x := x })
  | 2 => .ok (.pxor { d := f.d, a := f.a, b := f.b, p := f.p, x := x })
  | 3 => whenZero (f.b == 0) (.pnot { d := f.d, a := f.a, b := 0, p := f.p, x := x })
  | 4 => whenZero (f.b == 0) (.pcnt { d := f.d, a := f.a, b := 0, p := f.p, x := x })
  | _ => .error .noFunction

/-- Major 0x15 by fn (Table 8-8). -/
def decMemx (f : Fld) (x : XW) : Except Reject Instr :=
  match f.fn with
  | 0 => whenZero (f.b == 0) (.ldf { d := f.d, a := f.a, b := 0, p := f.p, x := x })
  | 1 => whenZero (f.b == 0) (.ldfC { d := f.d, a := f.a, b := 0, p := f.p, x := x })
  | 2 => whenZero (f.d == 0) (.ste { d := 0, a := f.a, b := f.b, p := f.p, x := x })
  | 3 =>
    match f.b with
    | 0 => whenZero (f.d == 0) (.fesetE { d := 0, a := f.a, b := 0, p := f.p, x := x })
    | 1 => whenZero (f.d == 0) (.fesetF { d := 0, a := f.a, b := 0, p := f.p, x := x })
    | _ => .error .noFunction
  | 4 => whenZero (f.b == 0) (.feqry { d := f.d, a := f.a, b := 0, p := f.p, x := x })
  | 5 => whenZero (f.d == 0 && f.b == 0) (.pref { d := 0, a := f.a, b := 0, p := f.p, x := x })
  | 6 => whenZero (f.b == 0) (.vld { d := f.d, a := f.a, b := 0, p := f.p, x := x })
  | 7 => whenZero (f.d == 0) (.vst { d := 0, a := f.a, b := f.b, p := f.p, x := x })
  | 8 => .ok (.vldst { d := f.d, a := f.a, b := f.b, p := f.p, x := x })
  | 9 => .ok (.vgath { d := f.d, a := f.a, b := f.b, p := f.p, x := x })
  | 10 => .ok (.vscat { d := f.d, a := f.a, b := f.b, p := f.p, x := x })
  | 11 => .ok (.stbm { d := f.d, a := f.a, b := f.b, p := f.p, x := x })
  | 12 => .ok (.ldbm { d := f.d, a := f.a, b := f.b, p := f.p, x := x })
  | 13 => whenZero (f.d == 0 && f.a == 0 && f.b == 0) (.fence { d := 0, a := 0, b := 0, p := f.p, x := x })
  | 14 => whenZero (f.d == 0 && f.a == 0 && f.b == 0) (.fenceq { d := 0, a := 0, b := 0, p := f.p, x := x })
  | 15 => whenZero (f.d == 0) (.synci { d := 0, a := f.a, b := f.b, p := f.p, x := x })
  | 21 => whenZero (f.d == 0 && f.b == 0) (.prefS { d := 0, a := f.a, b := 0, p := f.p, x := x })
  | 22 => whenZero (f.b == 0) (.vldS { d := f.d, a := f.a, b := 0, p := f.p, x := x })
  | 23 => whenZero (f.d == 0) (.vstS { d := 0, a := f.a, b := f.b, p := f.p, x := x })
  | 24 => .ok (.vldstS { d := f.d, a := f.a, b := f.b, p := f.p, x := x })
  | 25 => .ok (.vgathS { d := f.d, a := f.a, b := f.b, p := f.p, x := x })
  | 26 => .ok (.vscatS { d := f.d, a := f.a, b := f.b, p := f.p, x := x })
  | 27 => .ok (.stbmS { d := f.d, a := f.a, b := f.b, p := f.p, x := x })
  | 28 => .ok (.ldbmS { d := f.d, a := f.a, b := f.b, p := f.p, x := x })
  | _ => .error .noFunction

/-- Major 0x16 by fn (Table 8-8). -/
def decAmoW (f : Fld) (x : XW) : Except Reject Instr :=
  match f.fn with
  | 0 => .ok (.amoAddW { d := f.d, a := f.a, b := f.b, p := f.p, x := x })
  | 1 => .ok (.amoMinW { d := f.d, a := f.a, b := f.b, p := f.p, x := x })
  | 2 => .ok (.amoMaxW { d := f.d, a := f.a, b := f.b, p := f.p, x := x })
  | 3 => .ok (.amoMinuW { d := f.d, a := f.a, b := f.b, p := f.p, x := x })
  | 4 => .ok (.amoMaxuW { d := f.d, a := f.a, b := f.b, p := f.p, x := x })
  | 5 => .ok (.amoAndW { d := f.d, a := f.a, b := f.b, p := f.p, x := x })
  | 6 => .ok (.amoOrW { d := f.d, a := f.a, b := f.b, p := f.p, x := x })
  | 7 => .ok (.amoXorW { d := f.d, a := f.a, b := f.b, p := f.p, x := x })
  | 8 => .ok (.amoSwapW { d := f.d, a := f.a, b := f.b, p := f.p, x := x })
  | 9 => .ok (.amoFaddF32 { d := f.d, a := f.a, b := f.b, p := f.p, x := x })
  | 10 => .ok (.amoFaddBf16 { d := f.d, a := f.a, b := f.b, p := f.p, x := x })
  | 11 => .ok (.casW { d := f.d, a := f.a, b := f.b, p := f.p, x := x })
  | 12 => .ok (.amaxrstW { d := f.d, a := f.a, b := f.b, p := f.p, x := x })
  | 16 => .ok (.amoAddWS { d := f.d, a := f.a, b := f.b, p := f.p, x := x })
  | 17 => .ok (.amoMinWS { d := f.d, a := f.a, b := f.b, p := f.p, x := x })
  | 18 => .ok (.amoMaxWS { d := f.d, a := f.a, b := f.b, p := f.p, x := x })
  | 19 => .ok (.amoMinuWS { d := f.d, a := f.a, b := f.b, p := f.p, x := x })
  | 20 => .ok (.amoMaxuWS { d := f.d, a := f.a, b := f.b, p := f.p, x := x })
  | 21 => .ok (.amoAndWS { d := f.d, a := f.a, b := f.b, p := f.p, x := x })
  | 22 => .ok (.amoOrWS { d := f.d, a := f.a, b := f.b, p := f.p, x := x })
  | 23 => .ok (.amoXorWS { d := f.d, a := f.a, b := f.b, p := f.p, x := x })
  | 24 => .ok (.amoSwapWS { d := f.d, a := f.a, b := f.b, p := f.p, x := x })
  | 25 => .ok (.amoFaddF32S { d := f.d, a := f.a, b := f.b, p := f.p, x := x })
  | 26 => .ok (.amoFaddBf16S { d := f.d, a := f.a, b := f.b, p := f.p, x := x })
  | 27 => .ok (.casWS { d := f.d, a := f.a, b := f.b, p := f.p, x := x })
  | 28 => .ok (.amaxrstWS { d := f.d, a := f.a, b := f.b, p := f.p, x := x })
  | _ => .error .noFunction

/-- Major 0x17 by fn (Table 8-8). -/
def decAmoD (f : Fld) (x : XW) : Except Reject Instr :=
  match f.fn with
  | 0 => .ok (.amoAddD { d := f.d, a := f.a, b := f.b, p := f.p, x := x })
  | 1 => .ok (.amoMinD { d := f.d, a := f.a, b := f.b, p := f.p, x := x })
  | 2 => .ok (.amoMaxD { d := f.d, a := f.a, b := f.b, p := f.p, x := x })
  | 3 => .ok (.amoMinuD { d := f.d, a := f.a, b := f.b, p := f.p, x := x })
  | 4 => .ok (.amoMaxuD { d := f.d, a := f.a, b := f.b, p := f.p, x := x })
  | 5 => .ok (.amoAndD { d := f.d, a := f.a, b := f.b, p := f.p, x := x })
  | 6 => .ok (.amoOrD { d := f.d, a := f.a, b := f.b, p := f.p, x := x })
  | 7 => .ok (.amoXorD { d := f.d, a := f.a, b := f.b, p := f.p, x := x })
  | 8 => .ok (.amoSwapD { d := f.d, a := f.a, b := f.b, p := f.p, x := x })
  | 11 => .ok (.casD { d := f.d, a := f.a, b := f.b, p := f.p, x := x })
  | 12 => .ok (.amaxrstD { d := f.d, a := f.a, b := f.b, p := f.p, x := x })
  | 16 => .ok (.amoAddDS { d := f.d, a := f.a, b := f.b, p := f.p, x := x })
  | 17 => .ok (.amoMinDS { d := f.d, a := f.a, b := f.b, p := f.p, x := x })
  | 18 => .ok (.amoMaxDS { d := f.d, a := f.a, b := f.b, p := f.p, x := x })
  | 19 => .ok (.amoMinuDS { d := f.d, a := f.a, b := f.b, p := f.p, x := x })
  | 20 => .ok (.amoMaxuDS { d := f.d, a := f.a, b := f.b, p := f.p, x := x })
  | 21 => .ok (.amoAndDS { d := f.d, a := f.a, b := f.b, p := f.p, x := x })
  | 22 => .ok (.amoOrDS { d := f.d, a := f.a, b := f.b, p := f.p, x := x })
  | 23 => .ok (.amoXorDS { d := f.d, a := f.a, b := f.b, p := f.p, x := x })
  | 24 => .ok (.amoSwapDS { d := f.d, a := f.a, b := f.b, p := f.p, x := x })
  | 27 => .ok (.casDS { d := f.d, a := f.a, b := f.b, p := f.p, x := x })
  | 28 => .ok (.amaxrstDS { d := f.d, a := f.a, b := f.b, p := f.p, x := x })
  | _ => .error .noFunction

/-- Major 0x28 by fn (Table 8-8). -/
def decVf (f : Fld) (x : XW) : Except Reject Instr :=
  match f.fn with
  | 0 => .ok (.vaddF32 { d := f.d, a := f.a, b := f.b, p := f.p, x := x })
  | 1 => .ok (.vsubF32 { d := f.d, a := f.a, b := f.b, p := f.p, x := x })
  | 2 => .ok (.vmulF32 { d := f.d, a := f.a, b := f.b, p := f.p, x := x })
  | 3 => .ok (.vfmaF32 { d := f.d, a := f.a, b := f.b, p := f.p, x := x })
  | 4 => .ok (.vfmsF32 { d := f.d, a := f.a, b := f.b, p := f.p, x := x })
  | 5 => .ok (.vminF32 { d := f.d, a := f.a, b := f.b, p := f.p, x := x })
  | 6 => .ok (.vmaxF32 { d := f.d, a := f.a, b := f.b, p := f.p, x := x })
  | 7 => whenZero (f.b == 0) (.vabsF32 { d := f.d, a := f.a, b := 0, p := f.p, x := x })
  | 8 => whenZero (f.b == 0) (.vnegF32 { d := f.d, a := f.a, b := 0, p := f.p, x := x })
  | 9 => .ok (.vcmpEqF32 { d := f.d, a := f.a, b := f.b, p := f.p, x := x })
  | 10 => .ok (.vcmpNeF32 { d := f.d, a := f.a, b := f.b, p := f.p, x := x })
  | 11 => .ok (.vcmpLtF32 { d := f.d, a := f.a, b := f.b, p := f.p, x := x })
  | 12 => .ok (.vcmpLeF32 { d := f.d, a := f.a, b := f.b, p := f.p, x := x })
  | 13 => whenZero (f.b == 0) (.vredAddF32 { d := f.d, a := f.a, b := 0, p := f.p, x := x })
  | 14 => whenZero (f.b == 0) (.vredMaxF32 { d := f.d, a := f.a, b := 0, p := f.p, x := x })
  | 15 => whenZero (f.b == 0) (.vredMinF32 { d := f.d, a := f.a, b := 0, p := f.p, x := x })
  | 16 => whenZero (f.b == 0) (.vscanAddF32 { d := f.d, a := f.a, b := 0, p := f.p, x := x })
  | 17 => whenZero (f.b == 0) (.vrcp { d := f.d, a := f.a, b := 0, p := f.p, x := x })
  | 18 => whenZero (f.b == 0) (.vrsq { d := f.d, a := f.a, b := 0, p := f.p, x := x })
  | 19 => whenZero (f.b == 0) (.vsqrt { d := f.d, a := f.a, b := 0, p := f.p, x := x })
  | 20 => whenZero (f.b == 0) (.vexp2 { d := f.d, a := f.a, b := 0, p := f.p, x := x })
  | 21 => whenZero (f.b == 0) (.vlog2 { d := f.d, a := f.a, b := 0, p := f.p, x := x })
  | 22 => whenZero (f.b == 0) (.vtanh { d := f.d, a := f.a, b := 0, p := f.p, x := x })
  | 23 => if x.ximm.getLsbD 0 then .ok (.vscaleI32 { d := f.d, a := f.a, b := f.b, p := f.p, x := x }) else .ok (.vscaleF32 { d := f.d, a := f.a, b := f.b, p := f.p, x := x })
  | _ => .error .noFunction

/-- Major 0x29 by fn (Table 8-8). -/
def decVi (f : Fld) (x : XW) : Except Reject Instr :=
  match f.fn with
  | 0 => .ok (.vaddI32 { d := f.d, a := f.a, b := f.b, p := f.p, x := x })
  | 1 => .ok (.vsubI32 { d := f.d, a := f.a, b := f.b, p := f.p, x := x })
  | 2 => .ok (.vmulI32 { d := f.d, a := f.a, b := f.b, p := f.p, x := x })
  | 3 => .ok (.vminI32 { d := f.d, a := f.a, b := f.b, p := f.p, x := x })
  | 4 => .ok (.vmaxI32 { d := f.d, a := f.a, b := f.b, p := f.p, x := x })
  | 5 => .ok (.vminU32 { d := f.d, a := f.a, b := f.b, p := f.p, x := x })
  | 6 => .ok (.vmaxU32 { d := f.d, a := f.a, b := f.b, p := f.p, x := x })
  | 7 => whenZero (f.b == 0) (.vabsI32 { d := f.d, a := f.a, b := 0, p := f.p, x := x })
  | 8 => whenZero (f.b == 0) (.vnegI32 { d := f.d, a := f.a, b := 0, p := f.p, x := x })
  | 9 => .ok (.vand { d := f.d, a := f.a, b := f.b, p := f.p, x := x })
  | 10 => .ok (.vor { d := f.d, a := f.a, b := f.b, p := f.p, x := x })
  | 11 => .ok (.vxor { d := f.d, a := f.a, b := f.b, p := f.p, x := x })
  | 12 => whenZero (f.b == 0) (.vnot { d := f.d, a := f.a, b := 0, p := f.p, x := x })
  | 13 => .ok (.vshl { d := f.d, a := f.a, b := f.b, p := f.p, x := x })
  | 14 => .ok (.vshr { d := f.d, a := f.a, b := f.b, p := f.p, x := x })
  | 15 => .ok (.vsra { d := f.d, a := f.a, b := f.b, p := f.p, x := x })
  | 16 => .ok (.vcmpEqI32 { d := f.d, a := f.a, b := f.b, p := f.p, x := x })
  | 17 => .ok (.vcmpNeI32 { d := f.d, a := f.a, b := f.b, p := f.p, x := x })
  | 18 => .ok (.vcmpLtI32 { d := f.d, a := f.a, b := f.b, p := f.p, x := x })
  | 19 => .ok (.vcmpLeI32 { d := f.d, a := f.a, b := f.b, p := f.p, x := x })
  | 20 => .ok (.vcmpLtuI32 { d := f.d, a := f.a, b := f.b, p := f.p, x := x })
  | 21 => .ok (.vcmpLeuI32 { d := f.d, a := f.a, b := f.b, p := f.p, x := x })
  | 22 => whenZero (f.b == 0) (.vredAddI32 { d := f.d, a := f.a, b := 0, p := f.p, x := x })
  | 23 => whenZero (f.b == 0) (.vredMaxI32 { d := f.d, a := f.a, b := 0, p := f.p, x := x })
  | 24 => whenZero (f.b == 0) (.vredMinI32 { d := f.d, a := f.a, b := 0, p := f.p, x := x })
  | 25 => whenZero (f.b == 0) (.vscanAddI32 { d := f.d, a := f.a, b := 0, p := f.p, x := x })
  | _ => .error .noFunction

/-- Major 0x2A by fn (Table 8-8). -/
def decVx (f : Fld) (x : XW) : Except Reject Instr :=
  match f.fn with
  | 0 => .ok (.vsel { d := f.d, a := f.a, b := f.b, p := f.p, x := x })
  | 1 => whenZero (f.b == 0) (.vmov { d := f.d, a := f.a, b := 0, p := f.p, x := x })
  | 2 => whenZero (f.b == 0) (.vbcast { d := f.d, a := f.a, b := 0, p := f.p, x := x })
  | 3 => .ok (.vextr { d := f.d, a := f.a, b := f.b, p := f.p, x := x })
  | 4 => .ok (.vins { d := f.d, a := f.a, b := f.b, p := f.p, x := x })
  | 5 => .ok (.vperm { d := f.d, a := f.a, b := f.b, p := f.p, x := x })
  | 6 => .ok (.vshuf { d := f.d, a := f.a, b := f.b, p := f.p, x := x })
  | 7 => whenZero (f.b == 0) (.vcomp { d := f.d, a := f.a, b := 0, p := f.p, x := x })
  | 8 => whenZero (f.b == 0) (.vexpd { d := f.d, a := f.a, b := 0, p := f.p, x := x })
  | 9 => whenZero (f.b == 0) (.vcvt { d := f.d, a := f.a, b := 0, p := f.p, x := x })
  | 10 => .ok (.vlut { d := f.d, a := f.a, b := f.b, p := f.p, x := x })
  | 11 => if x.ximm.getLsbD 0 then whenZero (f.b == 0) (.kldBf16 { d := f.d, a := f.a, b := 0, p := f.p, x := x }) else whenZero (f.b == 0) (.kldE4m3 { d := f.d, a := f.a, b := 0, p := f.p, x := x })
  | 12 => .ok (.vqdec { d := f.d, a := f.a, b := f.b, p := f.p, x := x })
  | 13 => .ok (.vdot4I8 { d := f.d, a := f.a, b := f.b, p := f.p, x := x })
  | 14 => .ok (.vdot4E4m3 { d := f.d, a := f.a, b := f.b, p := f.p, x := x })
  | _ => .error .noFunction

/-- Major 0x2B by fn (Table 8-8). -/
def decQs (f : Fld) (x : XW) : Except Reject Instr :=
  match f.fn with
  | 0 => whenZero (f.b == 0) (.qbind { d := f.d, a := f.a, b := 0, p := f.p, x := x })
  | 1 => whenZero (f.b == 0) (.qbindc { d := f.d, a := f.a, b := 0, p := f.p, x := x })
  | 2 => whenZero (f.a == 0 && f.b == 0) (.qfree { d := f.d, a := 0, b := 0, p := f.p, x := x })
  | 3 => whenZero (f.b == 0) (.qstat { d := f.d, a := f.a, b := 0, p := f.p, x := x })
  | 4 => whenZero (f.b == 0) (.qpeek { d := f.d, a := f.a, b := 0, p := f.p, x := x })
  | 5 => whenZero (f.d == 0) (.qskip { d := 0, a := f.a, b := f.b, p := f.p, x := x })
  | 6 => whenZero (f.a == 0) (.qemit { d := f.d, a := 0, b := f.b, p := f.p, x := x })
  | 7 => whenZero (f.d == 0) (.qseek { d := 0, a := f.a, b := f.b, p := f.p, x := x })
  | _ => .error .noFunction

/-- Major 0x2C by fn (Table 8-8). -/
noncomputable def decTask (f : Fld) (x : XW) : Except Reject Instr :=
  match f.fn with
  | 0 => whenZero (f.d == 0) (.tspawn { d := 0, a := f.a, b := f.b, p := f.p, x := x })
  | 1 => whenZero (f.d == 0) (.tspawng { d := 0, a := f.a, b := f.b, p := f.p, x := x })
  | 2 => whenZero (f.d == 0 && f.a == 0 && f.b == 0) (.tend { d := 0, a := 0, b := 0, p := f.p, x := x })
  | 3 => whenZero (f.d == 0 && f.a == 0 && f.b == 0) (.tabort { d := 0, a := 0, b := 0, p := f.p, x := x })
  | 4 => whenZero (f.d == 0) (.futres { d := 0, a := f.a, b := f.b, p := f.p, x := x })
  | 5 => whenZero (f.d == 0) (.futreg { d := 0, a := f.a, b := f.b, p := f.p, x := x })
  | 6 => whenZero (f.d == 0) (.futjoin { d := 0, a := f.a, b := f.b, p := f.p, x := x })
  | 7 => whenZero (f.d == 0 && f.b == 0) (.gjoin { d := 0, a := f.a, b := 0, p := f.p, x := x })
  | 8 => whenZero (f.d == 0 && f.b == 0) (.gleave { d := 0, a := f.a, b := 0, p := f.p, x := x })
  | 9 => whenZero (f.b == 0) (.garr { d := f.d, a := f.a, b := 0, p := f.p, x := x })
  | 10 => whenZero (f.d == 0) (.gwait { d := 0, a := f.a, b := f.b, p := f.p, x := x })
  | 11 => whenZero (f.d == 0) (.barinit { d := 0, a := f.a, b := f.b, p := f.p, x := x })
  | 12 => whenZero (f.b == 0) (.bararr { d := f.d, a := f.a, b := 0, p := f.p, x := x })
  | 13 => .ok (.barexp { d := f.d, a := f.a, b := f.b, p := f.p, x := x })
  | 14 => whenZero (f.d == 0) (.barwait { d := 0, a := f.a, b := f.b, p := f.p, x := x })
  | 15 => whenZero (f.b == 0) (.rawait { d := f.d, a := f.a, b := 0, p := f.p, x := x })
  | 16 => whenZero (f.d == 0 && f.b == 0) (.rrel { d := 0, a := f.a, b := 0, p := f.p, x := x })
  | 17 => whenZero (f.b == 0) (.rpoll { d := f.d, a := f.a, b := 0, p := f.p, x := x })
  | _ => .error .noFunction

/-- Major 0x2D by fn (Table 8-8). -/
noncomputable def decEng (f : Fld) (x : XW) : Except Reject Instr :=
  match f.fn with
  | 0 => whenZero (f.d == 0 && f.b == 0) (.cpy { d := 0, a := f.a, b := 0, p := f.p, x := x })
  | 1 => .ok (.cpyq { d := f.d, a := f.a, b := f.b, p := f.p, x := x })
  | 2 => whenZero (f.d == 0) (.cpyf { d := 0, a := f.a, b := f.b, p := f.p, x := x })
  | 3 => whenZero (f.d == 0) (.msend { d := 0, a := f.a, b := f.b, p := f.p, x := x })
  | 4 => whenZero (f.d == 0) (.mxop { d := 0, a := f.a, b := f.b, p := f.p, x := x })
  | 5 => whenZero (f.d == 0) (.cfgw { d := 0, a := f.a, b := f.b, p := f.p, x := x })
  | 6 => whenZero (f.d == 0) (.cfgs { d := 0, a := f.a, b := f.b, p := f.p, x := x })
  | 7 => whenZero (f.d == 0 && f.b == 0) (.gstart { d := 0, a := f.a, b := 0, p := f.p, x := x })
  | 8 => whenZero (f.d == 0) (.gfrz { d := 0, a := f.a, b := f.b, p := f.p, x := x })
  | 9 => whenZero (f.d == 0) (.gthaw { d := 0, a := f.a, b := f.b, p := f.p, x := x })
  | 10 => whenZero (f.d == 0 && f.a == 0) (.jcancel { d := 0, a := 0, b := f.b, p := f.p, x := x })
  | 11 => whenZero (f.d == 0) (.gfrzRound { d := 0, a := f.a, b := f.b, p := f.p, x := x })
  | _ => .error .noFunction

/-- Major 0x2E by fn (Table 8-8). -/
noncomputable def decSys (f : Fld) (x : XW) : Except Reject Instr :=
  match f.fn with
  | 0 => whenZero (f.d == 0 && f.a == 0) (.trap { d := 0, a := 0, b := f.b, p := f.p, x := x })
  | 1 => whenZero (f.d == 0 && f.a == 0 && f.b == 0) (.eret { d := 0, a := 0, b := 0, p := f.p, x := x })
  | 2 => whenZero (f.b == 0) (.mfs { d := f.d, a := f.a, b := 0, p := f.p, x := x })
  | 3 => whenZero (f.a == 0) (.mts { d := f.d, a := 0, b := f.b, p := f.p, x := x })
  | 4 => whenZero (f.d == 0 && f.a == 0) (.wfe { d := 0, a := 0, b := f.b, p := f.p, x := x })
  | 5 => whenZero (f.d == 0 && f.a == 0 && f.b == 0) (.sev { d := 0, a := 0, b := 0, p := f.p, x := x })
  | 6 => whenZero (f.d == 0 && f.a == 0) (.brk { d := 0, a := 0, b := f.b, p := f.p, x := x })
  | 7 => whenZero (f.d == 0 && f.a == 0 && f.b == 0) (.nop { d := 0, a := 0, b := 0, p := f.p, x := x })
  | 8 =>
    match f.d with
    | 0 => whenZero (f.a == 0 && f.b == 0) (.tlbinvAll { d := 0, a := 0, b := 0, p := f.p, x := x })
    | 1 => whenZero (f.b == 0) (.tlbinvVa { d := 0, a := f.a, b := 0, p := f.p, x := x })
    | 2 => .ok (.tlbinvRng { d := 0, a := f.a, b := f.b, p := f.p, x := x })
    | _ => .error .noFunction
  | 9 => whenZero (f.d == 0) (.cinv { d := 0, a := f.a, b := f.b, p := f.p, x := x })
  | 10 => whenZero (f.d == 0) (.cwb { d := 0, a := f.a, b := f.b, p := f.p, x := x })
  | 11 => whenZero (f.d == 0 && f.a == 0) (.idle { d := 0, a := 0, b := f.b, p := f.p, x := x })
  | _ => .error .noFunction

/-- An R or V word, by major. -/
noncomputable def decR (f : Fld) (x : XW) : Except Reject Instr :=
  match f.op with
  | 0 => decAlu f x
  | 18 => decCtl f x
  | 19 => decPred f x
  | 21 => decMemx f x
  | 22 => decAmoW f x
  | 23 => decAmoD f x
  | 40 => decVf f x
  | 41 => decVi f x
  | 42 => decVx f x
  | 43 => decQs f x
  | 44 => decTask f x
  | 45 => decEng f x
  | 46 => decSys f x
  | _ => .error .noMajor

/-- Majors 0x01-0x05 (I), whose X word gives IMMH (R232). -/
def decI (w : W32) (ext : Option (BitVec 26)) : Except Reject Instr :=
  let o : OpI := { d := w.extractLsb' 20 6, a := w.extractLsb' 14 6, imm := w.extractLsb' 0 14,
                   has := ext.isSome, immh := ext.getD 0 }
  match w.extractLsb' 26 6 with
  | 1 => .ok (.addi o)
  | 2 => .ok (.andi o)
  | 3 => .ok (.ori o)
  | 4 => .ok (.xori o)
  | 5 => .ok (.slti o)
  | _ => .error .noMajor

/-- Majors 0x18-0x27 (M), whose X word gives OFFH and NEG (R232). -/
def decM (w : W32) (ext : Option (BitVec 26)) : Except Reject Instr :=
  let e : BitVec 26 := ext.getD 0
  let o : OpM := { t := w.extractLsb' 20 6, a := w.extractLsb' 14 6, off := w.extractLsb' 3 11,
                   p := w.extractLsb' 0 3, has := ext.isSome, neg := e.extractLsb' 25 1 == 1#1,
                   offh := e.extractLsb' 0 25 }
  match w.extractLsb' 26 6 with
  | 24 => .ok (.ldB o)
  | 25 => .ok (.ldH o)
  | 26 => .ok (.ldW o)
  | 27 => .ok (.ldD o)
  | 28 => .ok (.stB o)
  | 29 => .ok (.stH o)
  | 30 => .ok (.stW o)
  | 31 => .ok (.stD o)
  | 32 => .ok (.ldsB o)
  | 33 => .ok (.ldsH o)
  | 34 => .ok (.ldsW o)
  | 35 => .ok (.ldsD o)
  | 36 => .ok (.stsB o)
  | 37 => .ok (.stsH o)
  | 38 => .ok (.stsW o)
  | 39 => .ok (.stsD o)
  | _ => .error .noMajor

/-- The majors that accept no X word: BF, U, B, BX, J and PSETI (R229, R236). -/
def decPlain (w : W32) : Except Reject Instr :=
  let d : BitVec 6 := w.extractLsb' 20 6
  let a : BitVec 6 := w.extractLsb' 14 6
  let bf : OpBf := { d := d, a := a, len := w.extractLsb' 6 6, pos := w.extractLsb' 0 6 }
  let u : OpU := { d := d, imm := w.extractLsb' 0 20 }
  let br : OpB := { a := d, b := a, off := w.extractLsb' 0 14 }
  let bx : OpBx := { a := d, off := w.extractLsb' 0 14 }
  let j : OpJ := { off := w.extractLsb' 0 26 }
  match w.extractLsb' 26 6 with
  | 0x06 =>
    match (w.extractLsb' 12 2 : BitVec 2) with
    | 0 => .ok (.bfx bf)
    | 1 => .ok (.bfxS bf)
    | 2 => .ok (.bfi bf)
    | _ => .error .noFunction
  | 0x07 => .ok (.lih u)
  | 0x08 => .ok (.addpc u)
  | 0x09 => .ok (.beq br)
  | 0x0A => .ok (.bne br)
  | 0x0B => .ok (.blt br)
  | 0x0C => .ok (.bge br)
  | 0x0D => .ok (.bltu br)
  | 0x0E => .ok (.bgeu br)
  | 0x0F =>
    match a with
    | 0 => .ok (.bqe bx)
    | 1 => .ok (.bpa bx)
    | 2 => .ok (.bpn bx)
    | 3 => .ok (.loop bx)
    | _ => .error .noFunction
  | 0x10 => .ok (.jmp j)
  | 0x11 => .ok (.call j)
  | 0x14 => whenZero (w.extractLsb' 16 4 == 0#4) (.pseti { d := d, mask := w.extractLsb' 0 16 })
  | _ => .error .noMajor

/-- The format of a major: what reads it (Table 8-7). -/
inductive Fmt where
  | plain | imm | mem | reg | xWord | unassigned
deriving DecidableEq, Repr

/-- The format of each major opcode (Table 8-7). -/
def fmtOf (op : BitVec 6) : Fmt :=
  let n := op.toNat
  if n = 0x3F then .xWord
  else if 1 ≤ n ∧ n ≤ 5 then .imm
  else if 0x18 ≤ n ∧ n ≤ 0x27 then .mem
  else if (6 ≤ n ∧ n ≤ 0x11) ∨ n = 0x14 then .plain
  else if n = 0 ∨ (0x12 ≤ n ∧ n ≤ 0x17) ∨ (0x28 ≤ n ∧ n ≤ 0x2E) then .reg
  else .unassigned

/-- The instruction a word is, after an X word with the extension ext or after none (R229, R233, R234). -/
noncomputable def decodeWord (ext : Option (BitVec 26)) (w : W32) : Except Reject Instr :=
  match fmtOf (w.extractLsb' 26 6) with
  | .plain => if ext.isSome then .error .badPair else decPlain w
  | .imm => decI w ext
  | .mem => decM w ext
  | .reg => decR (unpackR w) (xwOf ext)
  | .xWord => .error .badPair
  | .unassigned => .error .noMajor

/-- Whether a word is an X word. -/
def isX (w : W32) : Bool := w.extractLsb' 26 6 == 0x3F#6

/-- The instruction that one or two words are; the second word is read only after an X word (R229). -/
noncomputable def decodePair (w0 w1 : W32) : Except Reject Instr :=
  if isX w0 then decodeWord (some (w0.extractLsb' 0 26)) w1 else decodeWord none w0

/-- A little-endian word of four bytes (R4). -/
def wordOfBytes (b0 b1 b2 b3 : Byte) : W32 := b3 ++ b2 ++ b1 ++ b0

/-- The four bytes of a word, lowest address first (R4). -/
def bytesOfWord (w : W32) : List Byte :=
  [w.extractLsb' 0 8, w.extractLsb' 8 8, w.extractLsb' 16 8, w.extractLsb' 24 8]

/-- The decoder, on any bytes: the instruction at their head and the bytes after it. -/
noncomputable def decode : List Byte → Except Reject (Instr × List Byte)
  | b0 :: b1 :: b2 :: b3 :: rest =>
    let w0 := wordOfBytes b0 b1 b2 b3
    if isX w0 then
      match rest with
      | c0 :: c1 :: c2 :: c3 :: rest' =>
        match decodeWord (some (w0.extractLsb' 0 26)) (wordOfBytes c0 c1 c2 c3) with
        | .ok i => .ok (i, rest')
        | .error e => .error e
      | _ => .error .noBytes
    else
      match decodeWord none w0 with
      | .ok i => .ok (i, rest)
      | .error e => .error e
  | _ => .error .noBytes

/-- The decoder on a word of the opcode table: bit 0 is the least significant bit of the first word, a second
word's bits count on from bit 32, and bits from nbits up are 0. The words are laid out as memory holds them. -/
noncomputable def decodeTableWord (nbits w : Nat) : Option Instr :=
  let v := w % 2 ^ nbits
  let bs := bytesOfWord (BitVec.ofNat 32 v) ++ bytesOfWord (BitVec.ofNat 32 (v / 2 ^ 32))
  match decode bs with
  | .ok (i, _) => some i
  | .error _ => none

/-! The encoder, from the same tables. -/

/-- A word of R or V format (Table 8-5). -/
def packR (op d a b : BitVec 6) (p : BitVec 3) (fn : BitVec 5) : W32 := op ++ d ++ a ++ b ++ p ++ fn

/-- An X word (Table 8-5). -/
def packX (ext : BitVec 26) : W32 := 0x3F#6 ++ ext

/-- The extension of an R or V word's X word (Table 8-6). -/
def extOfXW (x : XW) : BitVec 26 := x.ximm ++ BitVec.ofBool x.neg ++ x.ord ++ x.scp ++ x.rm

/-- An R or V instruction's words. -/
def encR (x : XW) (w : W32) : List W32 := if x.has then [packX (extOfXW x), w] else [w]

/-- An I instruction's words. -/
def encI (op : BitVec 6) (o : OpI) : List W32 :=
  let w : W32 := op ++ o.d ++ o.a ++ o.imm
  if o.has then [packX o.immh, w] else [w]

/-- An M instruction's words. -/
def encM (op : BitVec 6) (o : OpM) : List W32 :=
  let w : W32 := op ++ o.t ++ o.a ++ o.off ++ o.p
  if o.has then [packX (BitVec.ofBool o.neg ++ o.offh), w] else [w]

/-- A BF word. -/
def encBf (s : BitVec 2) (o : OpBf) : List W32 := [0x06#6 ++ o.d ++ o.a ++ s ++ o.len ++ o.pos]
/-- A U word. -/
def encU (op : BitVec 6) (o : OpU) : List W32 := [op ++ o.d ++ o.imm]
/-- A B word. -/
def encB (op : BitVec 6) (o : OpB) : List W32 := [op ++ o.a ++ o.b ++ o.off]
/-- A BX word. -/
def encBx (s : BitVec 6) (o : OpBx) : List W32 := [0x0F#6 ++ o.a ++ s ++ o.off]
/-- A J word. -/
def encJ (op : BitVec 6) (o : OpJ) : List W32 := [op ++ o.off]

/-- The words of a well-formed instruction, first word first; an event row has none, and ILLEGAL_INSTRUCTION has
the words that were fetched. -/
def encode : Instr → List W32
  | .add o => encR o.x (packR 0x00 o.d o.a o.b o.p 1)
  | .sub o => encR o.x (packR 0x00 o.d o.a o.b o.p 2)
  | .mul o => encR o.x (packR 0x00 o.d o.a o.b o.p 3)
  | .mulhi o => encR o.x (packR 0x00 o.d o.a o.b o.p 4)
  | .mulhiu o => encR o.x (packR 0x00 o.d o.a o.b o.p 5)
  | .div o => encR o.x (packR 0x00 o.d o.a o.b o.p 6)
  | .divu o => encR o.x (packR 0x00 o.d o.a o.b o.p 7)
  | .rem o => encR o.x (packR 0x00 o.d o.a o.b o.p 8)
  | .remu o => encR o.x (packR 0x00 o.d o.a o.b o.p 9)
  | .and o => encR o.x (packR 0x00 o.d o.a o.b o.p 10)
  | .or o => encR o.x (packR 0x00 o.d o.a o.b o.p 11)
  | .xor o => encR o.x (packR 0x00 o.d o.a o.b o.p 12)
  | .shl o => encR o.x (packR 0x00 o.d o.a o.b o.p 13)
  | .shr o => encR o.x (packR 0x00 o.d o.a o.b o.p 14)
  | .sra o => encR o.x (packR 0x00 o.d o.a o.b o.p 15)
  | .shli o => encR o.x (packR 0x00 o.d o.a o.b o.p 16)
  | .shri o => encR o.x (packR 0x00 o.d o.a o.b o.p 17)
  | .srai o => encR o.x (packR 0x00 o.d o.a o.b o.p 18)
  | .slt o => encR o.x (packR 0x00 o.d o.a o.b o.p 19)
  | .sltu o => encR o.x (packR 0x00 o.d o.a o.b o.p 20)
  | .min o => encR o.x (packR 0x00 o.d o.a o.b o.p 21)
  | .max o => encR o.x (packR 0x00 o.d o.a o.b o.p 22)
  | .minu o => encR o.x (packR 0x00 o.d o.a o.b o.p 23)
  | .maxu o => encR o.x (packR 0x00 o.d o.a o.b o.p 24)
  | .sel o => encR o.x (packR 0x00 o.d o.a o.b o.p 25)
  | .lea0 o => encR o.x (packR 0x00 o.d o.a o.b o.p 26)
  | .lea1 o => encR o.x (packR 0x00 o.d o.a o.b o.p 27)
  | .lea2 o => encR o.x (packR 0x00 o.d o.a o.b o.p 28)
  | .lea3 o => encR o.x (packR 0x00 o.d o.a o.b o.p 29)
  | .clz o => encR o.x (packR 0x00 o.d o.a 0 o.p 30)
  | .ctz o => encR o.x (packR 0x00 o.d o.a 1 o.p 30)
  | .popc o => encR o.x (packR 0x00 o.d o.a 2 o.p 30)
  | .sxtB o => encR o.x (packR 0x00 o.d o.a 3 o.p 30)
  | .sxtH o => encR o.x (packR 0x00 o.d o.a 4 o.p 30)
  | .sxtW o => encR o.x (packR 0x00 o.d o.a 5 o.p 30)
  | .zxtB o => encR o.x (packR 0x00 o.d o.a 6 o.p 30)
  | .zxtH o => encR o.x (packR 0x00 o.d o.a 7 o.p 30)
  | .zxtW o => encR o.x (packR 0x00 o.d o.a 8 o.p 30)
  | .addi o => encI 0x01 o
  | .andi o => encI 0x02 o
  | .ori o => encI 0x03 o
  | .xori o => encI 0x04 o
  | .slti o => encI 0x05 o
  | .bfx o => encBf 0 o
  | .bfxS o => encBf 1 o
  | .bfi o => encBf 2 o
  | .lih o => encU 0x07 o
  | .addpc o => encU 0x08 o
  | .beq o => encB 0x09 o
  | .bne o => encB 0x0A o
  | .blt o => encB 0x0B o
  | .bge o => encB 0x0C o
  | .bltu o => encB 0x0D o
  | .bgeu o => encB 0x0E o
  | .bqe o => encBx 0 o
  | .bpa o => encBx 1 o
  | .bpn o => encBx 2 o
  | .loop o => encBx 3 o
  | .jmp o => encJ 0x10 o
  | .call o => encJ 0x11 o
  | .jmpr o => encR o.x (packR 0x12 0 o.a 0 o.p 0)
  | .callr o => encR o.x (packR 0x12 0 o.a 0 o.p 1)
  | .ret o => encR o.x (packR 0x12 0 0 0 o.p 2)
  | .enter o => encR o.x (packR 0x12 0 0 o.b o.p 3)
  | .leave o => encR o.x (packR 0x12 0 0 0 o.p 4)
  | .pand o => encR o.x (packR 0x13 o.d o.a o.b o.p 0)
  | .por o => encR o.x (packR 0x13 o.d o.a o.b o.p 1)
  | .pxor o => encR o.x (packR 0x13 o.d o.a o.b o.p 2)
  | .pnot o => encR o.x (packR 0x13 o.d o.a 0 o.p 3)
  | .pcnt o => encR o.x (packR 0x13 o.d o.a 0 o.p 4)
  | .pseti o => [0x14#6 ++ o.d ++ 0#4 ++ o.mask]
  | .ldf o => encR o.x (packR 0x15 o.d o.a 0 o.p 0)
  | .ldfC o => encR o.x (packR 0x15 o.d o.a 0 o.p 1)
  | .ste o => encR o.x (packR 0x15 0 o.a o.b o.p 2)
  | .fesetF o => encR o.x (packR 0x15 0 o.a 1 o.p 3)
  | .fesetE o => encR o.x (packR 0x15 0 o.a 0 o.p 3)
  | .feqry o => encR o.x (packR 0x15 o.d o.a 0 o.p 4)
  | .pref o => encR o.x (packR 0x15 0 o.a 0 o.p 5)
  | .vld o => encR o.x (packR 0x15 o.d o.a 0 o.p 6)
  | .vst o => encR o.x (packR 0x15 0 o.a o.b o.p 7)
  | .vldst o => encR o.x (packR 0x15 o.d o.a o.b o.p 8)
  | .vgath o => encR o.x (packR 0x15 o.d o.a o.b o.p 9)
  | .vscat o => encR o.x (packR 0x15 o.d o.a o.b o.p 10)
  | .stbm o => encR o.x (packR 0x15 o.d o.a o.b o.p 11)
  | .ldbm o => encR o.x (packR 0x15 o.d o.a o.b o.p 12)
  | .fence o => encR o.x (packR 0x15 0 0 0 o.p 13)
  | .fenceq o => encR o.x (packR 0x15 0 0 0 o.p 14)
  | .synci o => encR o.x (packR 0x15 0 o.a o.b o.p 15)
  | .prefS o => encR o.x (packR 0x15 0 o.a 0 o.p 21)
  | .vldS o => encR o.x (packR 0x15 o.d o.a 0 o.p 22)
  | .vstS o => encR o.x (packR 0x15 0 o.a o.b o.p 23)
  | .vldstS o => encR o.x (packR 0x15 o.d o.a o.b o.p 24)
  | .vgathS o => encR o.x (packR 0x15 o.d o.a o.b o.p 25)
  | .vscatS o => encR o.x (packR 0x15 o.d o.a o.b o.p 26)
  | .stbmS o => encR o.x (packR 0x15 o.d o.a o.b o.p 27)
  | .ldbmS o => encR o.x (packR 0x15 o.d o.a o.b o.p 28)
  | .amoAddW o => encR o.x (packR 0x16 o.d o.a o.b o.p 0)
  | .amoMinW o => encR o.x (packR 0x16 o.d o.a o.b o.p 1)
  | .amoMaxW o => encR o.x (packR 0x16 o.d o.a o.b o.p 2)
  | .amoMinuW o => encR o.x (packR 0x16 o.d o.a o.b o.p 3)
  | .amoMaxuW o => encR o.x (packR 0x16 o.d o.a o.b o.p 4)
  | .amoAndW o => encR o.x (packR 0x16 o.d o.a o.b o.p 5)
  | .amoOrW o => encR o.x (packR 0x16 o.d o.a o.b o.p 6)
  | .amoXorW o => encR o.x (packR 0x16 o.d o.a o.b o.p 7)
  | .amoSwapW o => encR o.x (packR 0x16 o.d o.a o.b o.p 8)
  | .amoFaddF32 o => encR o.x (packR 0x16 o.d o.a o.b o.p 9)
  | .amoFaddBf16 o => encR o.x (packR 0x16 o.d o.a o.b o.p 10)
  | .casW o => encR o.x (packR 0x16 o.d o.a o.b o.p 11)
  | .amaxrstW o => encR o.x (packR 0x16 o.d o.a o.b o.p 12)
  | .amoAddWS o => encR o.x (packR 0x16 o.d o.a o.b o.p 16)
  | .amoMinWS o => encR o.x (packR 0x16 o.d o.a o.b o.p 17)
  | .amoMaxWS o => encR o.x (packR 0x16 o.d o.a o.b o.p 18)
  | .amoMinuWS o => encR o.x (packR 0x16 o.d o.a o.b o.p 19)
  | .amoMaxuWS o => encR o.x (packR 0x16 o.d o.a o.b o.p 20)
  | .amoAndWS o => encR o.x (packR 0x16 o.d o.a o.b o.p 21)
  | .amoOrWS o => encR o.x (packR 0x16 o.d o.a o.b o.p 22)
  | .amoXorWS o => encR o.x (packR 0x16 o.d o.a o.b o.p 23)
  | .amoSwapWS o => encR o.x (packR 0x16 o.d o.a o.b o.p 24)
  | .amoFaddF32S o => encR o.x (packR 0x16 o.d o.a o.b o.p 25)
  | .amoFaddBf16S o => encR o.x (packR 0x16 o.d o.a o.b o.p 26)
  | .casWS o => encR o.x (packR 0x16 o.d o.a o.b o.p 27)
  | .amaxrstWS o => encR o.x (packR 0x16 o.d o.a o.b o.p 28)
  | .amoAddD o => encR o.x (packR 0x17 o.d o.a o.b o.p 0)
  | .amoMinD o => encR o.x (packR 0x17 o.d o.a o.b o.p 1)
  | .amoMaxD o => encR o.x (packR 0x17 o.d o.a o.b o.p 2)
  | .amoMinuD o => encR o.x (packR 0x17 o.d o.a o.b o.p 3)
  | .amoMaxuD o => encR o.x (packR 0x17 o.d o.a o.b o.p 4)
  | .amoAndD o => encR o.x (packR 0x17 o.d o.a o.b o.p 5)
  | .amoOrD o => encR o.x (packR 0x17 o.d o.a o.b o.p 6)
  | .amoXorD o => encR o.x (packR 0x17 o.d o.a o.b o.p 7)
  | .amoSwapD o => encR o.x (packR 0x17 o.d o.a o.b o.p 8)
  | .casD o => encR o.x (packR 0x17 o.d o.a o.b o.p 11)
  | .amaxrstD o => encR o.x (packR 0x17 o.d o.a o.b o.p 12)
  | .amoAddDS o => encR o.x (packR 0x17 o.d o.a o.b o.p 16)
  | .amoMinDS o => encR o.x (packR 0x17 o.d o.a o.b o.p 17)
  | .amoMaxDS o => encR o.x (packR 0x17 o.d o.a o.b o.p 18)
  | .amoMinuDS o => encR o.x (packR 0x17 o.d o.a o.b o.p 19)
  | .amoMaxuDS o => encR o.x (packR 0x17 o.d o.a o.b o.p 20)
  | .amoAndDS o => encR o.x (packR 0x17 o.d o.a o.b o.p 21)
  | .amoOrDS o => encR o.x (packR 0x17 o.d o.a o.b o.p 22)
  | .amoXorDS o => encR o.x (packR 0x17 o.d o.a o.b o.p 23)
  | .amoSwapDS o => encR o.x (packR 0x17 o.d o.a o.b o.p 24)
  | .casDS o => encR o.x (packR 0x17 o.d o.a o.b o.p 27)
  | .amaxrstDS o => encR o.x (packR 0x17 o.d o.a o.b o.p 28)
  | .ldB o => encM 0x18 o
  | .ldH o => encM 0x19 o
  | .ldW o => encM 0x1A o
  | .ldD o => encM 0x1B o
  | .stB o => encM 0x1C o
  | .stH o => encM 0x1D o
  | .stW o => encM 0x1E o
  | .stD o => encM 0x1F o
  | .ldsB o => encM 0x20 o
  | .ldsH o => encM 0x21 o
  | .ldsW o => encM 0x22 o
  | .ldsD o => encM 0x23 o
  | .stsB o => encM 0x24 o
  | .stsH o => encM 0x25 o
  | .stsW o => encM 0x26 o
  | .stsD o => encM 0x27 o
  | .vaddF32 o => encR o.x (packR 0x28 o.d o.a o.b o.p 0)
  | .vsubF32 o => encR o.x (packR 0x28 o.d o.a o.b o.p 1)
  | .vmulF32 o => encR o.x (packR 0x28 o.d o.a o.b o.p 2)
  | .vfmaF32 o => encR o.x (packR 0x28 o.d o.a o.b o.p 3)
  | .vfmsF32 o => encR o.x (packR 0x28 o.d o.a o.b o.p 4)
  | .vminF32 o => encR o.x (packR 0x28 o.d o.a o.b o.p 5)
  | .vmaxF32 o => encR o.x (packR 0x28 o.d o.a o.b o.p 6)
  | .vabsF32 o => encR o.x (packR 0x28 o.d o.a 0 o.p 7)
  | .vnegF32 o => encR o.x (packR 0x28 o.d o.a 0 o.p 8)
  | .vcmpEqF32 o => encR o.x (packR 0x28 o.d o.a o.b o.p 9)
  | .vcmpNeF32 o => encR o.x (packR 0x28 o.d o.a o.b o.p 10)
  | .vcmpLtF32 o => encR o.x (packR 0x28 o.d o.a o.b o.p 11)
  | .vcmpLeF32 o => encR o.x (packR 0x28 o.d o.a o.b o.p 12)
  | .vredAddF32 o => encR o.x (packR 0x28 o.d o.a 0 o.p 13)
  | .vredMaxF32 o => encR o.x (packR 0x28 o.d o.a 0 o.p 14)
  | .vredMinF32 o => encR o.x (packR 0x28 o.d o.a 0 o.p 15)
  | .vscanAddF32 o => encR o.x (packR 0x28 o.d o.a 0 o.p 16)
  | .vrcp o => encR o.x (packR 0x28 o.d o.a 0 o.p 17)
  | .vrsq o => encR o.x (packR 0x28 o.d o.a 0 o.p 18)
  | .vsqrt o => encR o.x (packR 0x28 o.d o.a 0 o.p 19)
  | .vexp2 o => encR o.x (packR 0x28 o.d o.a 0 o.p 20)
  | .vlog2 o => encR o.x (packR 0x28 o.d o.a 0 o.p 21)
  | .vtanh o => encR o.x (packR 0x28 o.d o.a 0 o.p 22)
  | .vscaleF32 o => encR o.x (packR 0x28 o.d o.a o.b o.p 23)
  | .vscaleI32 o => encR o.x (packR 0x28 o.d o.a o.b o.p 23)
  | .vaddI32 o => encR o.x (packR 0x29 o.d o.a o.b o.p 0)
  | .vsubI32 o => encR o.x (packR 0x29 o.d o.a o.b o.p 1)
  | .vmulI32 o => encR o.x (packR 0x29 o.d o.a o.b o.p 2)
  | .vminI32 o => encR o.x (packR 0x29 o.d o.a o.b o.p 3)
  | .vmaxI32 o => encR o.x (packR 0x29 o.d o.a o.b o.p 4)
  | .vminU32 o => encR o.x (packR 0x29 o.d o.a o.b o.p 5)
  | .vmaxU32 o => encR o.x (packR 0x29 o.d o.a o.b o.p 6)
  | .vabsI32 o => encR o.x (packR 0x29 o.d o.a 0 o.p 7)
  | .vnegI32 o => encR o.x (packR 0x29 o.d o.a 0 o.p 8)
  | .vand o => encR o.x (packR 0x29 o.d o.a o.b o.p 9)
  | .vor o => encR o.x (packR 0x29 o.d o.a o.b o.p 10)
  | .vxor o => encR o.x (packR 0x29 o.d o.a o.b o.p 11)
  | .vnot o => encR o.x (packR 0x29 o.d o.a 0 o.p 12)
  | .vshl o => encR o.x (packR 0x29 o.d o.a o.b o.p 13)
  | .vshr o => encR o.x (packR 0x29 o.d o.a o.b o.p 14)
  | .vsra o => encR o.x (packR 0x29 o.d o.a o.b o.p 15)
  | .vcmpEqI32 o => encR o.x (packR 0x29 o.d o.a o.b o.p 16)
  | .vcmpNeI32 o => encR o.x (packR 0x29 o.d o.a o.b o.p 17)
  | .vcmpLtI32 o => encR o.x (packR 0x29 o.d o.a o.b o.p 18)
  | .vcmpLeI32 o => encR o.x (packR 0x29 o.d o.a o.b o.p 19)
  | .vcmpLtuI32 o => encR o.x (packR 0x29 o.d o.a o.b o.p 20)
  | .vcmpLeuI32 o => encR o.x (packR 0x29 o.d o.a o.b o.p 21)
  | .vredAddI32 o => encR o.x (packR 0x29 o.d o.a 0 o.p 22)
  | .vredMaxI32 o => encR o.x (packR 0x29 o.d o.a 0 o.p 23)
  | .vredMinI32 o => encR o.x (packR 0x29 o.d o.a 0 o.p 24)
  | .vscanAddI32 o => encR o.x (packR 0x29 o.d o.a 0 o.p 25)
  | .vsel o => encR o.x (packR 0x2A o.d o.a o.b o.p 0)
  | .vmov o => encR o.x (packR 0x2A o.d o.a 0 o.p 1)
  | .vbcast o => encR o.x (packR 0x2A o.d o.a 0 o.p 2)
  | .vextr o => encR o.x (packR 0x2A o.d o.a o.b o.p 3)
  | .vins o => encR o.x (packR 0x2A o.d o.a o.b o.p 4)
  | .vperm o => encR o.x (packR 0x2A o.d o.a o.b o.p 5)
  | .vshuf o => encR o.x (packR 0x2A o.d o.a o.b o.p 6)
  | .vcomp o => encR o.x (packR 0x2A o.d o.a 0 o.p 7)
  | .vexpd o => encR o.x (packR 0x2A o.d o.a 0 o.p 8)
  | .vcvt o => encR o.x (packR 0x2A o.d o.a 0 o.p 9)
  | .vlut o => encR o.x (packR 0x2A o.d o.a o.b o.p 10)
  | .kldE4m3 o => encR o.x (packR 0x2A o.d o.a 0 o.p 11)
  | .kldBf16 o => encR o.x (packR 0x2A o.d o.a 0 o.p 11)
  | .vqdec o => encR o.x (packR 0x2A o.d o.a o.b o.p 12)
  | .vdot4I8 o => encR o.x (packR 0x2A o.d o.a o.b o.p 13)
  | .vdot4E4m3 o => encR o.x (packR 0x2A o.d o.a o.b o.p 14)
  | .qbind o => encR o.x (packR 0x2B o.d o.a 0 o.p 0)
  | .qbindc o => encR o.x (packR 0x2B o.d o.a 0 o.p 1)
  | .qfree o => encR o.x (packR 0x2B o.d 0 0 o.p 2)
  | .qstat o => encR o.x (packR 0x2B o.d o.a 0 o.p 3)
  | .qpeek o => encR o.x (packR 0x2B o.d o.a 0 o.p 4)
  | .qskip o => encR o.x (packR 0x2B 0 o.a o.b o.p 5)
  | .qemit o => encR o.x (packR 0x2B o.d 0 o.b o.p 6)
  | .qseek o => encR o.x (packR 0x2B 0 o.a o.b o.p 7)
  | .tspawn o => encR o.x (packR 0x2C 0 o.a o.b o.p 0)
  | .tspawng o => encR o.x (packR 0x2C 0 o.a o.b o.p 1)
  | .tend o => encR o.x (packR 0x2C 0 0 0 o.p 2)
  | .tabort o => encR o.x (packR 0x2C 0 0 0 o.p 3)
  | .futres o => encR o.x (packR 0x2C 0 o.a o.b o.p 4)
  | .futreg o => encR o.x (packR 0x2C 0 o.a o.b o.p 5)
  | .futjoin o => encR o.x (packR 0x2C 0 o.a o.b o.p 6)
  | .gjoin o => encR o.x (packR 0x2C 0 o.a 0 o.p 7)
  | .gleave o => encR o.x (packR 0x2C 0 o.a 0 o.p 8)
  | .garr o => encR o.x (packR 0x2C o.d o.a 0 o.p 9)
  | .gwait o => encR o.x (packR 0x2C 0 o.a o.b o.p 10)
  | .barinit o => encR o.x (packR 0x2C 0 o.a o.b o.p 11)
  | .bararr o => encR o.x (packR 0x2C o.d o.a 0 o.p 12)
  | .barexp o => encR o.x (packR 0x2C o.d o.a o.b o.p 13)
  | .barwait o => encR o.x (packR 0x2C 0 o.a o.b o.p 14)
  | .rawait o => encR o.x (packR 0x2C o.d o.a 0 o.p 15)
  | .rrel o => encR o.x (packR 0x2C 0 o.a 0 o.p 16)
  | .rpoll o => encR o.x (packR 0x2C o.d o.a 0 o.p 17)
  | .cpy o => encR o.x (packR 0x2D 0 o.a 0 o.p 0)
  | .cpyq o => encR o.x (packR 0x2D o.d o.a o.b o.p 1)
  | .cpyf o => encR o.x (packR 0x2D 0 o.a o.b o.p 2)
  | .msend o => encR o.x (packR 0x2D 0 o.a o.b o.p 3)
  | .mxop o => encR o.x (packR 0x2D 0 o.a o.b o.p 4)
  | .cfgw o => encR o.x (packR 0x2D 0 o.a o.b o.p 5)
  | .cfgs o => encR o.x (packR 0x2D 0 o.a o.b o.p 6)
  | .gstart o => encR o.x (packR 0x2D 0 o.a 0 o.p 7)
  | .gfrz o => encR o.x (packR 0x2D 0 o.a o.b o.p 8)
  | .gthaw o => encR o.x (packR 0x2D 0 o.a o.b o.p 9)
  | .jcancel o => encR o.x (packR 0x2D 0 0 o.b o.p 10)
  | .gfrzRound o => encR o.x (packR 0x2D 0 o.a o.b o.p 11)
  | .trap o => encR o.x (packR 0x2E 0 0 o.b o.p 0)
  | .eret o => encR o.x (packR 0x2E 0 0 0 o.p 1)
  | .mfs o => encR o.x (packR 0x2E o.d o.a 0 o.p 2)
  | .mts o => encR o.x (packR 0x2E o.d 0 o.b o.p 3)
  | .wfe o => encR o.x (packR 0x2E 0 0 o.b o.p 4)
  | .sev o => encR o.x (packR 0x2E 0 0 0 o.p 5)
  | .brk o => encR o.x (packR 0x2E 0 0 o.b o.p 6)
  | .nop o => encR o.x (packR 0x2E 0 0 0 o.p 7)
  | .tlbinvAll o => encR o.x (packR 0x2E 0 0 0 o.p 8)
  | .tlbinvVa o => encR o.x (packR 0x2E 1 o.a 0 o.p 8)
  | .tlbinvRng o => encR o.x (packR 0x2E 2 o.a o.b o.p 8)
  | .cinv o => encR o.x (packR 0x2E 0 o.a o.b o.p 9)
  | .cwb o => encR o.x (packR 0x2E 0 o.a o.b o.p 10)
  | .idle o => encR o.x (packR 0x2E 0 0 o.b o.p 11)
  | .postedAtomicPerformed _ => []
  | .patternReadahead _ _ => []
  | .portStallResume _ => []
  | .ldfRetry _ => []
  | .barwaitRelease _ => []
  | .rawaitRelease _ => []
  | .gwaitRelease _ => []
  | .wfeWake _ => []
  | .wfeTimeout _ => []
  | .idleExpire _ => []
  | .frontierReached _ => []
  | .deferredFaultDelivery _ => []
  | .journalChunkWaitTimeout _ => []
  | .tsCommit _ => []
  | .tsCommitComplete _ => []
  | .taskStart _ => []
  | .dispatcherTakePacket _ => []
  | .dispatchSelect _ => []
  | .headAging _ _ => []
  | .residentHeadRelease _ _ => []
  | .gangTimeout _ _ => []
  | .pipelineRebalance _ => []
  | .siteArbiterPeriod _ => []
  | .jcancelLinearise _ => []
  | .cancelKillTimeout _ => []
  | .jcancelComplete => []
  | .walkComplete _ => []
  | .icacheMissFill _ _ _ => []
  | .bankPortRequest _ _ => []
  | .rmwAtomic _ _ => []
  | .rmwAtomicComplete _ => []
  | .bankScrub _ _ => []
  | .atomicEnginePick _ => []
  | .atomicEngineLineFill _ _ => []
  | .atomicEngineRecall _ => []
  | .hostSnoop _ => []
  | .peerAccessServe _ => []
  | .copyQueueTake _ _ => []
  | .copyQueueStall _ _ => []
  | .fenceCopyStart _ _ => []
  | .copyTransfer _ _ => []
  | .copySegmentComplete _ _ _ => []
  | .copyComplete _ _ => []
  | .ringPushRetry _ _ => []
  | .ringRecordAck _ _ => []
  | .barrierUpdate _ => []
  | .controlTokenArrive _ => []
  | .cqtabWrite _ => []
  | .tqtabWrite _ => []
  | .ptrootWrite _ => []
  | .domcfgWrite _ _ => []
  | .registerWrite _ _ => []
  | .cfgStreamApply _ => []
  | .cfgWordApply _ => []
  | .paramBlockRead _ => []
  | .startTokenArrive _ => []
  | .skipReceived _ => []
  | .scnFire _ => []
  | .isxFire _ => []
  | .uniFire _ => []
  | .rptFire _ => []
  | .redFire _ => []
  | .vrdFire _ => []
  | .cmbFire _ => []
  | .lwrFire _ => []
  | .rowFire _ => []
  | .memopFire _ => []
  | .joinFire _ => []
  | .periodCompletion _ => []
  | .madderBandDecode _ => []
  | .matrixOpFire _ => []
  | .matrixChunkComplete _ => []
  | .drainComplete _ => []
  | .mxopMma _ => []
  | .mxopDrain _ => []
  | .mxopZero _ => []
  | .roundMarkerReceive _ => []
  | .graphFreezeComplete _ => []
  | .circuitSourceSend _ => []
  | .circuitFlushTimer _ => []
  | .circuitPacketArrive _ _ _ => []
  | .activeMessageArrive _ => []
  | .faultRecordAlloc _ => []
  | .faultTaskLaunch _ _ => []
  | .frcmdResume _ _ => []
  | .frcmdAbandon _ _ => []
  | .frcmdRelease _ _ => []
  | .unitctlDrain _ _ => []
  | .unitctlFence _ _ => []
  | .unitctlUnfence _ _ => []
  | .jctlSave => []
  | .jctlRestore => []
  | .unitFailureDetect _ _ => []
  | .mirrorPoint => []
  | .mirrorPointAck => []
  | .buddyWrite _ => []
  | .packageLossRecovery _ => []
  | .ecntRead _ => []
  | .lnkstRead _ => []
  | .hsemCas _ _ _ => []
  | .hostBarAccess _ => []
  | .hnoteWrite _ => []
  | .pkgidWrite _ => []
  | .bootGo => []
  | .pwrctlRun => []
  | .pwrctlStandby => []
  | .pwrctlOff => []
  | .powerThrottle _ => []
  | .cxlMemAccess _ => []
  | .cxlRequestTimeout _ => []
  | .hostLinkDown _ => []
  | .packetHop _ => []
  | .packetArrive _ _ => []
  | .flitCrcReplay _ => []
  | .laneFailRestripe _ => []
  | .powerOnReset _ => []
  | .hbmTrainingDone => []
  | .linkTrained _ _ => []
  | .loaderLoadObject _ => []
  | .molrougEmbed _ _ => []
  | .illegalInstruction w second => [w, second]
  | .memorySideCacheAccess _ => []
  | .cxlRequestCompletion _ _ => []
  | .bisnpResponse _ => []
  | .hostLinkUp _ => []
  | .hsemRead => []
  | .circuitAcknowledgement _ _ => []
  | .graphThawComplete _ => []

/-- The length of an instruction in bytes: 8 with an X word, else 4 (R229). -/
def lenOf (i : Instr) : Nat := if (encode i).length = 2 then 8 else 4

/-- The bytes of an instruction, lowest address first. -/
def encodeBytes (i : Instr) : List Byte := (encode i).flatMap bytesOfWord

end Sys2Proof
end

