-- ==== Sys2Proof/Machine/Parts.lean ====
section
/-! DEFINITION. The parts of the state that belong to tasks, cores and the memory hierarchy, as plain data (spec/01,
02, 05, 06, 07, 08, 09, 11, 13). -/

namespace Sys2Proof.Machine
open Sys2Proof

/-- A cached leaf: the page's VA, its log2 size, the entry (R29). -/
structure TlbEnt where
  page : Nat
  bits : Nat
  leaf : W64
deriving DecidableEq, Repr

/-- What names a task among the live ones of the package: domain, timestamp, spawn sequence (Table 7-1). -/
structure Tid where
  dom : Nat
  ts : W64
  seq : W32
deriving DecidableEq, Repr

/-- A task: identity, launch record and placement (R191, R193, R217). -/
structure Task where
  tid : Tid
  prio : Nat
  csc : Nat
  hidx : Nat
  /-- The 64-byte launch record (R210), its argument record in bytes 16-63. -/
  packet : BitVec 512
  /-- The handler's first instruction, as its launch read it (R251). -/
  entry : W64
  /-- Column and row in the launch grid, and y * NX + x (Table 7-2). -/
  x : Nat
  y : Nat
  lin : Nat
  parent : Option Tid
  /-- The context whose area the task keeps (R193, R405). -/
  home : Nat
  /-- A fault task, which starts in S mode (R401). -/
  super : Bool
  /-- Spawns, MSENDs and engine commands issued so far, and how many of them a re-run drops (R408). -/
  issued : Nat
  dropFirst : Nat
  /-- Performed an action of R407's list. -/
  exposed : Bool
deriving DecidableEq, Repr

/-- Binding of a stream port: none, an address pattern with its 32-byte descriptor (R285), or a channel endpoint with
its endpoint word (R288) and its key. -/
inductive Bind where
  | unbound
  | pattern (desc : BitVec 256)
  | channel (ep : W64) (key : Nat)
deriving DecidableEq, Repr

/-- A stream port (R237-R240, R284-R297). -/
structure Port where
  bind : Bind
  /-- Pattern: next element in pattern order. Channel: tokens taken (R297). -/
  pos : Nat
  /-- Elements popped or pushed since the binding (POS, Table 9-5). -/
  cnt : Nat
  eos : Bool
  ltag : BitVec 4
  debt : Nat
  /-- Skip threshold (R294). -/
  thr : Option W32
  /-- Elements read ahead and not yet popped, raw; tokens that the binding keeps, as payload and tag (R240, R287). -/
  ahead : List Vec
  /-- What the instruction in progress has popped (R240). -/
  popped : List Vec
  /-- Tokens a timestamp task has pushed and not yet sent (R291). -/
  hold : List Token
  /-- Channel: tag of the last token taken, for the stream checks of R289. -/
  last : Option (BitVec 4)
  /-- Channel: DONE has been taken or pushed (R239, R290). -/
  done : Bool
deriving DecidableEq, Repr

/-- An unbound port. -/
def Port.free : Port :=
  { bind := .unbound, pos := 0, cnt := 0, eos := false, ltag := 0, debt := 0, thr := none, ahead := [], popped := [], hold := [],
    last := none, done := false }

/-- A task as a record of what it issued names it: identity, priority, handler index (R149). -/
structure Ident where
  tid : Tid
  prio : Nat
  hidx : Nat
deriving DecidableEq, Repr

/-- Who wrote the valid byte of a copy packet: its privilege, and the task where one did (R135, R149). -/
structure Author where
  super : Bool
  ident : Option Ident
deriving DecidableEq, Repr

/-- What a fault record says of a fault, beside the task's identity (Table 13-3). -/
structure FaultInfo where
  cause : Nat
  addr : W64
  port : Option Nat
  lane : Option Nat
  /-- Bytes 52-59 where POSV is set: I0, I1, I2. -/
  pos : Option (Nat × Nat × Nat)
  /-- POST: a posted atomic (R280). -/
  post : Bool
  deferred : Bool
  /-- TRAP: the bytes by which epc lies beyond the instruction's address (R339). -/
  skip : Nat
deriving DecidableEq, Repr

/-- A fault with nothing but a cause and an address. -/
def faultAt (cause : Nat) (addr : W64) : FaultInfo :=
  { cause := cause, addr := addr, port := none, lane := none, pos := none, post := false, deferred := false, skip := 0 }

/-- A fault with the address and the words of its instruction (R400). -/
structure Pend where
  f : FaultInfo
  pc : W64
  ir : List W32
deriving DecidableEq, Repr

/-- A store to host memory that stands in a store buffer, as the fault that its request may end in (R414): its context, its task, and
the address with its instruction. -/
structure Via where
  cid : Nat
  tid : Tid
  pend : Pend
deriving DecidableEq, Repr

/-- A line of a store buffer: written bytes by offset, tag changes by word of the line, whether it is charged to the pool, who
wrote its first byte last, and for a line of host memory what stored to it last (R61, R205, R271, R135,
R414). -/
structure SbLine where
  line : Nat
  bytes : FMap Byte
  tags : FMap Bool
  pooled : Bool
  author : Option Author
  via : Option Via
deriving DecidableEq, Repr

/-- What a fault record belongs to, beside a context: a copy of an engine, an element or cell. -/
inductive Link where
  | none
  | copy (eng id : Nat)
  | elem (k : Nat)
deriving DecidableEq, Repr

/-- A fault record's content (Tables 13-3, 13-4), but for SEQ and BUSY. -/
structure Rec where
  cause : Nat
  kind : Nat
  flags : Nat
  addr : W64
  pc : W64
  ts : W64
  tseq : Nat
  dom : Nat
  prio : Nat
  hidx : Nat
  who : Nat
  port : Option Nat
  lane : Option Nat
  pos : Option (Nat × Nat × Nat)
  detail : List Byte
  link : Link
deriving DecidableEq, Repr

/-- What has no room for an instruction (R192): a copy queue, an engine, a cell's command queue, a link for a message of some
flits, a die's spill area, the directory for an access to a line; and, as delays, a link for an access of a peer, the request queue of a
bank's port M or of a core's port to its cluster's atomic engine, and the translations by which an engine claims a slot of a queue. -/
inductive RoomIn where
  | queue (q : Nat)
  | engine (e : Nat)
  | cell (k : Nat)
  | link (len : Nat)
  | spill (die : Nat)
  | dir (line : Nat) (wr : Bool)
  | peer (len : Nat)
  | bank (k : Nat)
  | port (cl p : Nat)
  | claim (q : Nat)
deriving DecidableEq, Repr

/-- Why a context is not ready (R192). Times are values of cycle. -/
inductive Wait where
  /-- A pop, peek or push of a port (R239, R291). -/
  | port (n : Nat)
  /-- Registered in the wait table of the tag of this location; the consuming form (R48). -/
  | tag (loc : Nat) (consume : Bool)
  /-- An LDF that found the wait table full; retries at this cycle (R48). -/
  | tagRetry (at_ : Nat)
  /-- BARWAIT: object, phase (R330). -/
  | barrier (loc : Nat) (phase : Bool)
  /-- GWAIT: object, phase (R329). -/
  | group (loc : Nat) (phase : Bool)
  /-- RAWAIT: ring header (R331). -/
  | ring (loc : Nat)
  /-- WFE: the cycle at which its count ends (R341). -/
  | event (until_ : Option Nat)
  /-- A delay: IDLE, or an instruction that is tried again, at a cycle (R192, R341). -/
  | idle (until_ : Nat)
  /-- A full copy queue, engine, cell queue, link, spill area or directory (R192). -/
  | room (r : RoomIn)
  /-- A translation that a walk is to answer: the 64 KiB page (R30, R31). -/
  | walk (page : Nat)
  /-- An instruction line on its way to the core, for the word at a VA (R65). -/
  | fetch (va : W64)
  /-- A timestamp task waits to become the frontier task, then tries the instruction again (R186, R205, R291, R202). -/
  | frontier
  /-- A free task waits for a journal chunk since this cycle, for a store to this address (R206). -/
  | chunk (since : Nat) (ea : W64)
  /-- A fault waits for a free record (R397). -/
  | record (f : Pend)
  /-- A fault deferred in a timestamp task (R207). -/
  | deferred (f : Pend)
  /-- The task is dropped by TABORT or a kill and waits for the frontier (R322, R400). -/
  | dropped
deriving DecidableEq, Repr

/-- An operation at an RMW node or atomic engine (Table 2-5). -/
inductive AtomOp where
  | add | min | max | minu | maxu | and | or | xor | swap | faddF32 | faddBf16 | cas | amaxrst
deriving DecidableEq, Repr

/-- A request at a bank port or an atomic engine: an atomic, or a plain write of an engine or fabric element. A posted
atomic of a context has its cid. -/
structure Req where
  op : Option AtomOp
  loc : Nat
  size : Nat
  data : W64
  expected : W64
  /-- The context whose posted atomic it is, or the element context whose request it is. -/
  cid : Option Nat
  elem : Option Nat
  /-- The cycle it entered its queue (R55). -/
  arrival : Nat
  /-- The stream position of an element's request (R398). -/
  pos : Option Nat := none
deriving DecidableEq, Repr

/-- A posted atomic of a context not yet performed: its 64-byte line, the address it names, its instruction's address and
its words (R280). -/
structure Posted where
  line : Nat
  ea : W64
  pc : W64
  ir : List W32
deriving DecidableEq, Repr

/-- An action held until commit (R174, R209, R271, R344): what it is, with its operands and the bytes it read at
issue. -/
inductive Held where
  | spawn (packet : BitVec 512) (ts : W64) (csc : Nat) (gang : Bool)
  | msend (packet : BitVec 512) (payload : List Byte) (dest : W64) (super : Bool)
  | cpy (packet : BitVec 512) (super : Bool)
  | cpyq (packet : BitVec 512) (queue : W64) (super : Bool)
  | mxop (site : W64) (cmd : W64) (super : Bool)
  | cfgw (base : W64) (word : W64) (super : Bool)
  | cfgs (va : W64) (base : W64) (super : Bool)
  | gstart (base : W64)
  | gfrz (base : W64) (fut : W64) (round : Bool) (super : Bool)
  | gthaw (base : W64) (fut : W64) (super : Bool)
  | jcancel (reason : W64)
  | sev (scope : Nat)
  | gleave (loc : Nat) (arrived : Option Bool)
  | hnote (v : W64)
  /-- The hold of a port that was freed: endpoint and tokens (R291). -/
  | toks (key : Nat) (ts : List Token)
deriving DecidableEq, Repr

/-- What a configuration command does: CFGW's word; CFGS's stream, its header once read, and how many words are applied; a
freeze or thaw in progress, which commands after it wait for (R336). -/
inductive CfgOp where
  | word (w : W64)
  | stream (va : W64) (hdr : Option (BitVec 256)) (done : Nat)
  | graph
deriving DecidableEq, Repr

/-- A configuration command of a context, not yet wholly applied: its base, its instruction's address and words, its task
and privilege (R336). -/
structure CfgCmd where
  op : CfgOp
  base : Nat
  pc : W64
  ir : List W32
  ident : Option Ident
  super : Bool
deriving DecidableEq, Repr

/-- Whether the current frame of a resumed task is still to be filled before its next instruction (R243). -/
inductive Refill where
  | none
  | due
  /-- The fill has trapped: it is due again after the return from that trap. -/
  | trapped
deriving DecidableEq, Repr

/-- A task context (Tables 8-1 to 8-4, R192, R193). -/
structure Ctx where
  /-- The task it holds; a context with none is free. -/
  task : Option Task
  /-- The words it fetched for its instruction (R229). -/
  ir : List W32
  /-- Its task has been dispatched and has not executed its first instruction (R193). -/
  starting : Bool
  wait : Option Wait
  /-- What ended the wait of the instruction at pc: the word an LDF read, or 0 for a wait that only ends (R48, R330). -/
  got : Option W64
  /-- Answers of walks to the accesses of the instruction at pc: the page, and its leaf or a fault (R30, R36). -/
  walked : List (Nat × Option TlbEnt)
  pc : W64
  g : FMap W64
  phys : FMap W64
  v : FMap Vec
  p : FMap (BitVec 16)
  k : FMap (BitVec 256)
  lc : FMap W32
  fb : W64
  bsp : W64
  bsl : W64
  size : Nat
  rlo : Int
  mode : Bool
  pmode : Bool
  cause : W64
  epc : W64
  fault : W32
  ports : FMap Port
  /-- Event flag (R341). -/
  ev : Bool
  /-- Group and the phase in which the task arrived (R328). -/
  group : Option (Nat × Option Bool)
  posted : List Posted
  /-- Faults raised between instructions, oldest first: each is taken at a next instruction (R280, R336). -/
  trapNext : List Pend
  sb : List SbLine
  /-- Lines spilled to the die's journal, and the chunks held (R206). -/
  journal : List SbLine
  chunks : Nat
  held : List Held
  /-- Configuration commands issued and not yet applied (R336). -/
  cfg : List CfgCmd
  refill : Refill
  /-- The commit of the frontier task has begun before its end (R205, R291). -/
  committing : Bool
  /-- Engine of the previous direct copy (R332). -/
  lastEng : Option Nat
  /-- The mirror point that its instruction waits for (R410). -/
  point : Option Nat
  /-- cycle of the last issue (R220). -/
  lastIssue : Nat
  /-- Cycles for which it has been ready and has issued nothing (R407). -/
  idleFor : Nat
  /-- The task of this area was saved and has not ended (R405). -/
  reserved : Bool
deriving DecidableEq, Repr

/-- A context that holds no task. The register values stand at reset (DESIGN CHOICE, log 7); R193 sets them at a task's start. -/
def Ctx.reset : Ctx :=
  { task := none, ir := [], starting := false, wait := none, got := none, walked := [], pc := 0, g := [], phys := [], v := [], p := [], k := [], lc := [],
    fb := 0, bsp := 0, bsl := 0, size := 40, rlo := 0, mode := false, pmode := false, cause := 0, epc := 0,
    fault := 0xFFFFFFFF#32, ports := [], ev := false, group := none, posted := [], trapNext := [], sb := [],
    journal := [], chunks := 0, held := [], cfg := [], refill := .none, committing := false, lastEng := none, point := none, lastIssue := 0, idleFor := 0,
    reserved := false }

/-- A cached pointer of a page-walk cache: level of the table it names, the VA bits above it, the table's HBM
offset (R29). -/
structure PwEnt where
  level : Nat
  key : Nat
  table : Nat
deriving DecidableEq, Repr

/-- An AGT that waits for a walk: the number of its TLB, the copy it works for where it is an engine's, and whether an
element needs the page, or it was asked for in advance (R31, R32). -/
structure Joined where
  tlb : Nat
  copy : Nat
  demand : Bool
deriving DecidableEq, Repr

/-- A walk (R31): its 64 KiB page, the level and the HBM offset of the table that it reads next once it has begun, and the
L2 TLBs and AGTs that have joined it. -/
structure Walk where
  page : Nat
  pos : Option (Nat × Nat)
  clusters : List Nat
  agts : List Joined
deriving DecidableEq, Repr

/-- A cache line: its number (location / 64), its 64 bytes, and the poison mark of an instruction line (R65, R66). -/
structure CLine where
  line : Nat
  data : BitVec 512
  bad : Bool
deriving DecidableEq, Repr

/-- A line on its way to an instruction cache: its VA and its number, and whether it is read for the second time, its first
copy having been bad (R65, R66). -/
structure IFill where
  va : W64
  line : Nat
  again : Bool
deriving DecidableEq, Repr

/-- A core: special-value policy, caches, lines on their way, TLB, round-robin place, dispatch stopped (R227, R58, R65, R29,
R220, R405). -/
structure Core where
  pol : BitVec 4
  l1d : List CLine
  icache : List CLine
  ifills : List IFill
  tlb : List TlbEnt
  rr : Nat
  stopped : Bool
deriving DecidableEq, Repr

/-- A core at reset: empty caches (DESIGN CHOICE, log 6). -/
def Core.reset : Core := { pol := 0, l1d := [], icache := [], ifills := [], tlb := [], rr := 7, stopped := false }

/-- A cluster's atomic engine and second-level TLB (R54, R55, R29). -/
structure Cluster where
  tlb : List TlbEnt
  /-- Pages whose misses are outstanding, at most 32 (R30). -/
  misses : List Nat
  /-- Port queues, by core of the cluster. -/
  ports : FMap (List Req)
  /-- Lines held, most recently used first. -/
  lines : List CLine
  fills : List Nat
  lastWinner : Nat
deriving DecidableEq, Repr

/-- A cluster at reset (R55; empty otherwise, log 6). -/
def Cluster.reset : Cluster := { tlb := [], misses := [], ports := [], lines := [], fills := [], lastWinner := 15 }

/-- A bank or an operand node: wait table, port queues, in-flight comparator (R41, R48, R53). -/
structure Node where
  /-- Waiting contexts with their word or buffer, in registration order. -/
  waiters : List (Nat × Nat)
  portM : List Req
  portF : List Req
  inflight : List (Req × W64)
deriving DecidableEq, Repr

/-- A node at reset (DESIGN CHOICE, log 6). -/
def Node.reset : Node := { waiters := [], portM := [], portF := [], inflight := [] }

/-- A live task of a TS domain, or a task of a FREE domain that has its sequence number (R198, R208). -/
inductive LiveSt where
  | waiting
  | running (cid : Nat)
  /-- Ended, its context released (R204). -/
  | ended
deriving DecidableEq, Repr

/-- A live task and what it depends on (R184, R185, R208). -/
structure Live where
  task : Task
  st : LiveSt
  /-- Tasks whose buffered writes it has read. -/
  readFrom : List Tid
  /-- Marked dropped by TABORT or a kill (R322, R400). -/
  dropped : Bool
deriving DecidableEq, Repr

/-- What an ended timestamp task keeps until its commit (R204). -/
structure Ended where
  tid : Tid
  cid : Nat
  csc : Nat
  sb : List SbLine
  held : List Held
  /-- Port holds: endpoint and tokens (R291). -/
  holds : List (Nat × List Token)
  /-- The mirror point that its SYSTEM-scope end waits for (R410). -/
  point : Option Nat
deriving DecidableEq, Repr

/-- A record of a conflict-directory entry: task, read, wrote (R201). -/
structure DirRec where
  tid : Tid
  rd : Bool
  wr : Bool
deriving DecidableEq, Repr

/-- A domain's counters: next spawn sequence, timestamp of the last committed task (R199, R200). -/
structure Domain where
  next : W32
  lastTs : Option W64
  /-- A commit is in progress: its task and the stores not yet acknowledged (R182). -/
  commit : Option Tid
deriving DecidableEq, Repr

/-- A domain at reset: counter 0 (DESIGN CHOICE, log 7), nothing committed. -/
def Domain.reset : Domain := { next := 0, lastTs := none, commit := none }

/-- A head: its packet, the tasks not yet dispatched with their sequence numbers, the cycle it became head, whether it
has aged, placement cursor, its queue's privilege (R213-R217). One that is not yet accepted has no sequence numbers (R199). -/
structure Head where
  packet : BitVec 512
  entry : W64
  ts : W64
  csc : Nat
  parent : Option Tid
  super : Bool
  gang : Bool
  /-- (x, y, sequence) of the tasks left, in traversal order. -/
  todo : List (Nat × Nat × W32)
  since : Nat
  aged : Bool
  cursor : Option Nat
  dropFirst : Nat
  fresh : Bool
deriving DecidableEq, Repr

/-- A task queue as the Dispatcher serves it: header VA, gang timeout, pipeline, stage (Table 7-7). -/
structure TQueue where
  hdr : W64
  gto : Nat
  pl : Nat
  stg : Nat
  /-- Spilled head; its since is the time it had waited (R214). -/
  spilled : Option Head
deriving DecidableEq, Repr

/-- A resident head of a die: queue, its head, the cycle since which it is empty (R213, R214). -/
structure Resident where
  queue : Nat
  head : Option Head
  emptySince : Nat
deriving DecidableEq, Repr

/-- A die's Dispatcher (R213-R219, R223). -/
structure Dispatcher where
  queues : FMap TQueue
  resident : List Resident
  lastResident : Nat
  /-- Spawn queues by domain, oldest first. -/
  spawn : FMap (List Head)
  /-- last(L) by level; 4,159 at reset (R216). -/
  last : FMap Nat
  /-- Launches that the full spill area holds back at their sources, oldest first (R206, R215). -/
  due : List Head
  /-- Closed cluster, and the queue of the gang it is closed for (R218). -/
  closed : Option (Nat × Nat)
  /-- Stage of each core that a pipeline owns (R219). -/
  stage : FMap Nat
  /-- Selection has stopped for a job switch (R406). -/
  stopped : Bool
  /-- The cancel has reached this Dispatcher and is not yet linearised; it has been, at a cycle (R223). -/
  cancelDue : Bool
  cancelled : Bool
  cancelAt : Nat
  /-- The cycle of the last rebalancing of its pipelines (R219). -/
  rebalanced : Nat
  /-- Records written on this die (SEQ, Table 13-3). -/
  recSeq : W32
  /-- Asynchronous faults waiting for a record, and whether a fault task is due for each (R397). -/
  recWait : List (Rec × Bool)
  /-- Tasks pre-empted on this die, to be resumed (R405). -/
  saved : List Ctx
  /-- Records for which a fault task is due (R401). -/
  ftask : List Nat
deriving DecidableEq, Repr

/-- A Dispatcher at reset. -/
def Dispatcher.reset : Dispatcher :=
  { queues := [], resident := [], lastResident := 4095, spawn := [], due := [], last := [], closed := none, stage := [],
    stopped := false, cancelDue := false, cancelled := false, cancelAt := 0, rebalanced := 0, recSeq := 0, recWait := [], saved := [], ftask := [] }

/-- A die's walker: page-walk cache, walks (R29, R31). -/
structure Walker where
  /-- Pointers held, and those of root entries, most recently used first. -/
  cache : List PwEnt
  roots : List PwEnt
  walks : List Walk
  queue : List Walk
deriving DecidableEq, Repr

/-- A walker at reset (DESIGN CHOICE, log 6). -/
def Walker.reset : Walker := { cache := [], roots := [], walks := [], queue := [] }

/-- Phase of a fibre copy (R135). -/
inductive Phase where
  | pos | crd | val
deriving DecidableEq, Repr

/-- A write request of a copy, issued and not yet acknowledged: where its bytes lie among those of the copy in pattern order, and its
runs of bytes by location, each with its poison; and whether it ends within a word that the copy's next elements complete, and stays at
the engine until they join it (R39, R132, R144, R157). -/
structure CopyWr where
  lo : Nat
  hi : Nat
  runs : List (Nat × List Byte × Bool)
  opn : Bool := false
deriving DecidableEq, Repr

/-- An accepted copy (R126, R135, R149). -/
structure Copy where
  id : Nat
  /-- Copy queue and slot; none for a direct copy (R332). -/
  queue : Option (Nat × Nat)
  packet : BitVec 512
  super : Bool
  /-- The task that wrote it, where the engine knows it (R149). -/
  ident : Option Ident
  /-- The context that issued it directly. -/
  cid : Option Nat
  /-- The Mordant entry as it stood at acceptance (R115). -/
  filt : Nat
  started : Bool
  phase : Phase
  /-- Next elements, in pattern order of the phase, of the read AGT and of the write AGT (R135). -/
  next : Nat
  wnext : Nat
  /-- Elements read and not yet all written, raw, with their poison (R132). -/
  got : List (Nat × Bool)
  /-- Writes on their way to their homes (R132, R137). -/
  wr : List CopyWr
  /-- Fibre: pos[I0], and the last pos entry read and written (R133). -/
  p0 : Nat
  prev : Nat
  prevW : Nat
  /-- Bytes of the writes issued. -/
  bytes : Nat
  /-- Segments whose updates have been sent (R144). -/
  segs : List Nat
  /-- All writes issued. -/
  issued : Bool
  /-- Completion pending after a fault (R151). -/
  pend : Bool
  /-- Record of the fault that stopped it. -/
  faulted : Option (Option Nat)
  retryAt : Nat
  /-- A page for which a walk that it asked for ended in a fault (R36). -/
  badPage : Option Nat
  /-- A record reserved in a ring and not yet published: ring header, slot pointer (R140). -/
  rsv : Option (Nat × W32)
  /-- The mirror point that it waits for (R410). -/
  point : Option Nat
  /-- Abandoned by FRCMD or a cancel (R151, R153). -/
  abandoned : Bool
deriving DecidableEq, Repr

/-- A copy engine (R121, R124-R126). -/
structure Engine where
  /-- Served queues: number, header VA, cycle since which the head slot is empty while claimed. -/
  queues : List (Nat × W64 × Option Nat)
  copies : List Copy
  lastQueue : Nat
  stopped : Bool
  /-- A page of its queues for which a walk that it asked for ended in a fault (R36). -/
  badPage : Option Nat
deriving DecidableEq, Repr

/-- A copy engine at reset. -/
def Engine.reset : Engine := { queues := [], copies := [], lastQueue := 1023, stopped := false, badPage := none }

end Sys2Proof.Machine
end

