-- ==== Sys2Proof/Machine/FabParts.lean ====
section
/-! DEFINITION. The parts of the state that belong to the fabric: element contexts, matrix cells, channel endpoints,
graphs and circuits (spec/04, spec/12, spec/14). A site is named by its key 2304 * die + site index, an element context
by 4 * site key + context, an endpoint by 16 * site key + endpoint. -/

namespace Sys2Proof.Machine
open Sys2Proof

/-- A fibre being scanned (R359): its reference, the next position or coordinate, its end, and for a bitmap the rank of
the next set bit. -/
structure Fib where
  ref : Nat
  p : Nat
  e : Nat
  rank : Nat
deriving DecidableEq, Repr

/-- Running state of an element, by kind (R359-R377). -/
inductive Run where
  | idle
  /-- SCN: open, fibre being emitted, the root fibre has been emitted. -/
  | scn (isOpen : Bool) (fib : Option Fib) (rootDone : Bool)
  /-- ISX, UNI: SKIP(all ones) sent in this fibre; thresholds below which heads of A and B are discarded. -/
  | two (sent : Bool) (ta : Option W32) (tb : Option W32)
  /-- RPT: current token; buffered stream and whether it is whole; replays left, place in the replay; a closing
  stop is pending. -/
  | rpt (cur : Option Token) (buf : List Token) (whole : Bool) (left : Nat) (at_ : Nat) (pend : Bool)
  /-- RED: accumulator, the fibre has held a value. -/
  | red (acc : W32) (any : Bool)
  /-- LWR: p, f, the first token has been seen, values of the open BMV block, its fault. -/
  | lwr (p : Nat) (f : Nat) (begun : Bool) (vals : List W32)
  /-- ROW: lc0, lc1, lc2, pending stop. -/
  | row (lc0 : Nat) (lc1 : Nat) (lc2 : Nat) (pend : Option Nat)
  /-- MEMOP: layout in force, next element, pending layout, words of a layout message, streaming, wave, an AGT-LOAD's
  stream is over. -/
  | memop (layout : BitVec 256) (next : Nat) (pending : Option (BitVec 256)) (msg : List W32) (busy : Bool) (wave : Nat)
      (past : Bool)
  /-- JOIN: place in JSEQ, inputs that have delivered DONE, a unit is being taken. -/
  | join (at_ : Nat) (done : List Nat)
deriving DecidableEq, Repr

/-- A parameter-block read under way: the context and the command whose word named the block (R336, R348). -/
structure Reading where
  cid : Nat
  cmd : CfgCmd
deriving DecidableEq, Repr

/-- An element context (Table 12-3, R348, R354, R355, R357, R390-R392). -/
structure Elem where
  /-- Field values as last applied. -/
  fields : FMap Nat
  /-- Addresses formed by HI words, by HI field (R348). -/
  addrs : FMap Nat
  /-- Parameter block taken. -/
  block : List Byte
  /-- Its words wait for the read of a parameter block (R348). -/
  reading : Option Reading
  /-- Initial tokens, with their outputs (R354). -/
  init : List (Nat × Token)
  /-- Input buffers of 4 tokens (R353). -/
  ins : FMap (List Token)
  /-- Tag of the last token taken and tokens taken, by input (R98, R357). -/
  last : FMap (BitVec 4)
  count : FMap Nat
  /-- Start tokens on their way; one is held; the context waits for one (R354). -/
  coming : Nat
  held : Bool
  waiting : Bool
  run : Run
  /-- It has emitted or consumed its DONE, and has not been started since (R350). -/
  done : Bool
  /-- Emissions not yet delivered: output and token. -/
  outq : List (Nat × Token)
  /-- Drop-empty registers (R99). -/
  pend : Option Nat
  emit : Bool
  /-- SKIP slot and stops emitted and not yet taken, by output (R100). -/
  skip : FMap W32
  stops : FMap Nat
  /-- Elements and bytes written in the period; the period has ended and is to signal (R355). -/
  wrote : Nat
  bytes : Nat
  ended : Bool
  /-- Lines of peers' memory written in the period, as requests name them (R355, R423). -/
  away : List Nat
  /-- Record of its fault, and whether it is an AGT's, which RESUME restarts (R404). -/
  faulted : Option (Option Nat)
  agtFault : Bool
  /-- Round marker: inputs it has come on; sent (R392). -/
  marks : List Nat
  marked : Bool
  /-- Stopped by a freeze (R390). -/
  frozen : Bool
  /-- Arbiter quota and summed occupancy (R221). -/
  quota : Nat
  occ : Nat
  /-- The mirror point that its access of a peer waits for (R410). -/
  point : Option Nat
  /-- A page for which a walk that its AGT asked for ended in a fault (R36). -/
  badPage : Option Nat
  /-- Cycles for which it could have fired and has not (R407). -/
  idleFor : Nat
deriving DecidableEq, Repr

/-- An element context at reset: every field at its reset value of Table 12-3. -/
def Elem.reset : Elem :=
  { fields := [], addrs := [], block := [], reading := none, init := [], ins := [], last := [], count := [], coming := 0, held := false,
    waiting := false, run := .idle, done := false, outq := [], pend := none, emit := false, skip := [], stops := [], wrote := 0, bytes := 0,
    ended := false, away := [], faulted := none, agtFault := false, marks := [], marked := false, frozen := false, quota := 0,
    occ := 0, point := none, badPage := none, idleFor := 0 }

/-- Tag of an accumulator tile (R382). -/
inductive AccTag where
  | empty | live | full | draining
deriving DecidableEq, Repr

/-- A command queued at a cell: word, privilege (R335, R389). -/
structure CellCmd where
  cmd : W64
  super : Bool
deriving DecidableEq, Repr

/-- A matrix operation in progress: its accumulator (ZB or ZA), buffers, and the command it serves (R382, R389). -/
structure Chunk where
  zb : Bool
  a : Nat
  b : Nat
  cmd : Option CellCmd
deriving DecidableEq, Repr

/-- A drain in progress: its accumulator, its tile's number, the rows, blocks or tokens emitted, their bytes, and the
command it serves (R387, R389). -/
structure Drain where
  zb : Bool
  tile : Nat
  next : Nat
  bytes : Nat
  cmd : Option CellCmd
deriving DecidableEq, Repr

/-- What a coded tile's index entry and header say, read and checked once before band 0: its bands' number, whether it is stored raw,
the frequencies of its table, the bands' starts and the end of the last (R107-R110, R386). -/
structure CodedTab where
  bands : Nat
  stored : Bool
  freqs : List Nat
  bounds : List Nat
deriving DecidableEq, Repr

/-- The coded tile of the next chunk, while one is in progress: its B buffer, its number, its entry and header as read when the buffer was
full, and of its first band what the decoder has made ready (R386). -/
structure NextTile where
  buf : Nat
  tile : Nat
  tab : CodedTab
  rows : List (List Nat)
  lanes : List Nat
  ptr : Nat
deriving DecidableEq, Repr

/-- What has gone wrong with the bytes written to a buffer since it became empty: poison came with them (R402), or, where it takes BMV
blocks, a block failed a check and what follows it is dropped (R118). -/
inductive Taint where
  | poison | dropped
deriving DecidableEq, Repr

/-- A matrix cell (R44, R49, R379-R389). Tiles are indexed 64 * i + j. -/
structure Cell where
  za : FMap (BitVec 56)
  zb : FMap (BitVec 56)
  ra : FMap (BitVec 56)
  rb : FMap (BitVec 56)
  tagA : AccTag
  tagB : AccTag
  satA : Bool
  satB : Bool
  /-- Numbers of the tiles that ZA and ZB hold. -/
  tileA : Nat
  tileB : Nat
  c : Nat
  t : Nat
  k : Nat
  /-- Next buffer of ON-A and ON-B. -/
  nextA : Nat
  nextB : Nat
  /-- Buffer tags, bytes written since empty, and reuse counts left, by 8 * node + buffer. -/
  tags : FMap Bool
  fill : FMap Nat
  /-- Bytes of a BMV block that has not arrived whole, by 8 * node + buffer (R118). -/
  stage : FMap (List Byte)
  /-- Taints of buffers, by 8 * node + buffer. -/
  taint : FMap Taint
  reuse : FMap Nat
  cmds : List CellCmd
  busy : Option Chunk
  /-- Tables copied from the parameter block (R380). -/
  cb : List Byte
  pt : List Byte
  ft : List Byte
  /-- Mordant entry read by DRN or DMORD (Table 12-8). -/
  mord : W64
  /-- Decoder: the tile's checked entry and header; lane states, step, word pointer, band (R113). -/
  coded : Option CodedTab
  lanes : List Nat
  step : Nat
  ptr : Nat
  band : Nat
  /-- Rows of the B tile decoded and released. -/
  rows : List (List Nat)
  ahead : Option NextTile
  /-- The decoded band's tile is malformed: the cell does not fire until reconfigured (R386). -/
  stopped : Bool
  drain : Option Drain
  point : Option Nat
deriving DecidableEq, Repr

/-- A matrix cell at reset (R46, R350). -/
def Cell.reset : Cell :=
  { za := [], zb := [], ra := [], rb := [], tagA := .empty, tagB := .empty, satA := false, satB := false, tileA := 0, tileB := 0, c := 0, t := 0, k := 0, nextA := 0,
    nextB := 0, tags := [], fill := [], stage := [], taint := [], reuse := [], cmds := [], busy := none, cb := [], pt := [], ft := [], mord := 0,
    coded := none, lanes := [], step := 0, ptr := 0, band := 0, rows := [], ahead := none, stopped := false, drain := none, point := none }

/-- A cell whose decoder has not begun on a tile. -/
def Cell.undecoded (c : Cell) : Cell := { c with coded := none, lanes := [], step := 0, ptr := 0, band := 0, rows := [], ahead := none }

/-- A channel endpoint of a task core (R288, R378): EPCFG, EPDEST, tokens arrived at an input, the context and port
bound to it; and for the next binding of an input, the tag of the last token that came out of the channel, and tokens that an
instruction which trapped had popped: they are in the channel still, ahead of the others (R240, R296). -/
structure Endp where
  cfg : Nat
  dest : Nat
  buf : List Token
  bound : Option (Nat × Nat)
  last : Option (BitVec 4)
  kept : List Token
deriving DecidableEq, Repr

/-- An endpoint at reset. -/
def Endp.reset : Endp := { cfg := 0, dest := 0, buf := [], bound := none, last := none, kept := [] }

/-- A graph (R336, R349, R350, R390-R393). -/
structure Graph where
  die : Nat
  col : Nat
  row : Nat
  w : Nat
  h : Nat
  rmk : Bool
  elems : Nat
  rmask : W64
  rbuf : W64
  started : Bool
  frozen : Bool
  /-- A freeze or thaw in progress: the future it resolves, by the round marker. -/
  freezing : Option (W64 × Bool)
  thawing : Option W64
  /-- Configured with S-mode privilege. -/
  super : Bool
  /-- It holds a fenced site and is to be placed again (R409). -/
  lost : Bool
deriving DecidableEq, Repr

/-- A Narrows circuit (R376, R426). -/
structure Circuit where
  src : Option Nat
  dst : Option Nat
  /-- Tokens at the source end not yet sent, and the cycle of the last of them. -/
  buf : List Token
  since : Nat
  nextSeq : Nat
  /-- Packets sent and not acknowledged. -/
  unacked : List (Nat × List Token)
  /-- Destination: next sequence number, packets ahead of it, tokens in order not yet delivered. -/
  expect : Nat
  window : FMap (List Token)
  deliver : List Token
deriving DecidableEq, Repr

/-- A circuit at reset. -/
def Circuit.reset : Circuit :=
  { src := none, dst := none, buf := [], since := 0, nextSeq := 0, unacked := [], expect := 0, window := [],
    deliver := [] }

/-- The fabric of the package. -/
structure Fabric where
  elems : FMap Elem
  cells : FMap Cell
  endps : FMap Endp
  graphs : FMap Graph
  circuits : FMap Circuit
  /-- Mordant entries by (3 * site key + table) * 16 + entry (R114, R356). -/
  mordant : FMap W64
  /-- MSEL by site key (R356), CTX by site key (R351), ESEL by site key (R378). -/
  msel : FMap Nat
  ctxSel : FMap Nat
  esel : FMap Nat
  /-- Running context of a multi-context site, and the cycle of its arbiter's last period (R221). -/
  running : FMap Nat
  period : FMap Nat
  /-- What the record of a site other than a cell stands for, by the number that its body holds: the states of the site's contexts
  (R391, R393; log 12). -/
  readElems : FMap (FMap Elem)
deriving DecidableEq, Repr

/-- The fabric at reset. -/
def Fabric.reset : Fabric :=
  { elems := [], cells := [], endps := [], graphs := [], circuits := [], mordant := [], msel := [], ctxSel := [], esel := [],
    running := [], period := [], readElems := [] }

end Sys2Proof.Machine
end

