-- ==== Sys2Proof/Machine/HostParts.lean ====
section
/-! DEFINITION. The parts of the state that belong to the package's ports, links, mirror, saved job and loader (spec/08, 13,
14). -/

namespace Sys2Proof.Machine
open Sys2Proof

/-- What a job switch saves and a mirror point sends (R406, R410): Dispatchers with the tasks saved there, copy
engines, domains, live tasks, ended frontier tasks, directory records, journal chunks in use, contexts whose areas stay their tasks',
graphs, device registers; for a mirror point, the memory it covers and its tags. -/
structure Snap where
  disp : FMap Dispatcher
  engines : FMap Engine
  domains : FMap Domain
  live : List Live
  ended : List Ended
  dir : FMap (List DirRec)
  chunks : FMap Nat
  homes : List Nat
  fab : Fabric
  dev : FMap W64
  mem : List Host.Cell
  tags : FMap Bool
  /-- Poison marks of the memory covered. -/
  poison : FMap Bool
  linePoison : FMap Bool
deriving DecidableEq, Repr

/-- A packet held at this package on its way (R422): its current dimension, the mirror point it waits for (R410), the input port whose
buffers hold it, 12 the injection point, and the link on which it has started with the flits sent there. -/
structure LinkPkt where
  id : Nat
  pkt : Packet
  dim : Nat
  need : Nat
  inp : Nat
  link : Option Nat
  sent : Nat
deriving DecidableEq, Repr

/-- What a host's access completes with (R412, R413): the bytes read, poison reported, a write done, or Unsupported Request. -/
inductive Answer where
  | data (v : Nat) | poison | done | unsupported
deriving DecidableEq, Repr

/-- A symbol that the loader has placed (R249, R252). -/
structure Sym where
  name : List Byte
  weak : Bool
  value : Nat
  /-- The value of the symbol entry itself, before placing: a virtual site of a VSITE relocation (R249). -/
  entry : Nat
deriving DecidableEq, Repr

/-- Ports, links, power, mirror, saved job and loader of the package. -/
structure HostSt where
  /-- Power is off (R429); the compute clock is stopped. -/
  off : Bool
  standby : Bool
  /-- Host links that are up, by port (R414, R427). -/
  up : FMap Bool
  /-- Requesters whose CXL.cache request completes with an error (R414), by cid. -/
  bad : List Nat
  /-- The port by which a core last reached a line of host memory, by location / 64 (R14). -/
  port : FMap Bool
  /-- The die of a unit whose access is in progress, where it is not that of the context in focus (Table 14-6). -/
  unit : Option Nat
  /-- The answers to the accesses of each host port, oldest first (R412, R413). -/
  answers : List (Nat × Answer)
  /-- HBM lines a host port holds, by location / 64 (R414). -/
  held : FMap Nat
  /-- MSI-X messages sent, oldest first, as (port, vector); masked and pending vectors, by 2048 * port + vector. -/
  sent : List (Nat × Nat)
  masked : FMap Bool
  pending : FMap Bool
  /-- Packets held here; packets that left, with their port; credits used at the far end of a port, by 3 * port + kind. -/
  pkts : List LinkPkt
  left : List (Nat × Packet)
  used : FMap Nat
  /-- Slots of the input buffers here that have come free and are not returned yet, by 3 * port + kind (R422). -/
  owed : FMap Nat
  pktNext : Nat
  /-- Requests to peers without a response yet: their tags, with the first and last 64-byte line of a write or an atomic (R420, R423). -/
  asked : List (Nat × Nat × Nat)
  /-- Jobs saved, by the number that their areas' first bytes hold, and the action of JCTL in progress, true a SAVE (R406; DESIGN
  CHOICE, log 13). -/
  saved : FMap Snap
  job : Option Bool
  /-- A step of bring-up has failed; the boot task has been launched (R427). -/
  failed : Bool
  booted : Bool
  /-- Message types bound by embedded modules: type, task queue, handler index (R255). -/
  binds : List (Nat × Nat × Nat)
  /-- Mirror: points closed, points completed, cycle of the last close, the state sent, the buddy's copy (R410). -/
  points : Nat
  pointsDone : Nat
  pointAt : Nat
  pointSnap : Option Snap
  mirror : Option Snap
  /-- Loader: objects given, symbols, handler indices filled, statuses (code, object, name offset) (R252). -/
  objects : Nat
  syms : List Sym
  handlers : List Nat
  status : List (Nat × Nat × Nat)
deriving DecidableEq, Repr

/-- At reset: links down, nothing sent, no job saved, nothing loaded. -/
def HostSt.reset : HostSt :=
  { off := false, standby := false, up := [], bad := [], port := [], unit := none, answers := [], held := [], sent := [], masked := [], pending := [], pkts := [],
    left := [], used := [], owed := [], pktNext := 0, asked := [], saved := [], job := none, failed := false, booted := false,
    binds := [], points := 0, pointsDone := 0, pointAt := 0, pointSnap := none,
    mirror := none, objects := 0, syms := [], handlers := [], status := [] }

end Sys2Proof.Machine
end

