-- ==== Sys2Proof/Machine/State.lean ====
section
/-! DEFINITION. The state of a package, all of it plain data, its state after reset, and the names under which a run can
stop. -/

namespace Sys2Proof.Machine
open Sys2Proof

/-- The package. A site is named by the key 2304 * die + site index; a context by cid = 1024 * die + 8 * core + context
(R193); a core by 128 * die + core; a cluster by 8 * die + cluster (R437); a copy engine by 16 * die + engine. -/
structure State where
  /-- Bytes of S-space, HBM, host and peer memory by location number (R156; DESIGN CHOICE, log 2). An unlisted byte reads 0 (DESIGN
  CHOICE, log 3). -/
  mem : List Host.Cell
  /-- Full/empty bits of bank words, by location / 8; empty where unlisted (R46). -/
  tags : FMap Bool
  /-- Poison bits of bank words, by location / 8 (R43), and of 64-byte HBM lines, by location / 64 (R402). -/
  poison : FMap Bool
  linePoison : FMap Bool
  /-- Who wrote the 1 in the first byte of a line, where a task or a unit did: what an engine that takes a copy packet there knows of its
  writer (R135, R149). -/
  authors : FMap Author
  /-- Site kinds that differ from Config's arrangement (R346, R437; DESIGN CHOICE, log 5), and the fence map (R407). -/
  siteMap : FMap Nat
  fmap : FMap Bool
  /-- Device registers by offset, where they differ from their reset value (R6). -/
  dev : FMap W64
  /-- The context whose instruction runs next or ran last, its registers, and the other contexts. -/
  cur : Nat
  cx : Ctx
  others : FMap Ctx
  cores : FMap Core
  clusters : FMap Cluster
  nodes : FMap Node
  walkers : FMap Walker
  /-- TLBs of address generators: of engine e, 2 * e for its reads and 2 * e + 1 for its writes; of element context k,
  128 + k (R29, R32, R135). From 2 ^ 20 on, the answers of walks that a unit without a TLB has asked for and not yet used. -/
  agtTlbs : FMap (List TlbEnt)
  /-- Pages for which a walk that such a unit asked for ended in a fault (R31, R36). -/
  unitBad : FMap Nat
  disp : FMap Dispatcher
  engines : FMap Engine
  /-- Ids given to copies so far. -/
  copyNext : Nat
  domains : FMap Domain
  live : List Live
  ended : List Ended
  /-- Conflict directory, by line number (R201). -/
  dir : FMap (List DirRec)
  /-- Journal chunks in use, by die (R206). -/
  chunksUsed : FMap Nat
  fab : Fabric
  host : HostSt
  /-- Compute-clock cycles since package reset (R226). -/
  cycle : Nat
  /-- The MODEL's own (DESIGN CHOICE, log 8): free values drawn so far. -/
  draws : Nat
deriving DecidableEq, Repr

/-- Why a run stops with a fault. The machine has no fault that stops it: its faults are traps and records. -/
inductive Fault where
  /-- Raised by step and exec when the package's power is off: nothing runs and nothing is kept (R429). Safe. -/
  | powerOff
deriving DecidableEq, Repr

/-- Why the model refuses a step. -/
inductive Refusal where
  /-- Raised by Dispatch for an instruction without a meaning in the model. Safe. -/
  | notModelled (mnemonic : String)
  /-- Raised by exec for an instruction of a context that holds no task: no such thing happens (R191). Safe. -/
  | noTask
deriving DecidableEq, Repr

/-- The package after reset: no task, memory with nothing listed, every register at its reset value. -/
def State.reset : State :=
  { mem := [], tags := [], poison := [], linePoison := [], authors := [], siteMap := [], fmap := [], dev := [], cur := 0, cx := Ctx.reset,
    others := [], cores := [], clusters := [], nodes := [], walkers := [], agtTlbs := [], unitBad := [], disp := [], engines := [], copyNext := 0,
    domains := [], live := [], ended := [], dir := [], chunksUsed := [],
    fab := Fabric.reset, host := HostSt.reset, cycle := 0, draws := 0 }

end Sys2Proof.Machine
end

