-- ==== Sys2Proof/Machine/Mem.lean ====
section
/-! DEFINITION. The named operations over memory, device registers' storage, sites, translation, caches, poison and
tags (spec/01, 02). -/

namespace Sys2Proof.Machine
open Sys2Proof

/-! ## Actions of a context -/

/-- How an action ends early: a trap or a wait, and the state that stands where it is not the one before the
instruction (R240, R256). -/
inductive Stop where
  | trap (f : FaultInfo) (kept : Option State)
  | wait (w : Wait) (kept : Option State)
  /-- The task no longer runs on the context: the state is the one given. -/
  | gone (s : State)

/-- An action of the current context on the package. -/
abbrev Act (α : Type) := EStateM Stop State α

/-- Reads the state. -/
def view {α : Type} (f : State → α) : Act α := fun s => .ok (f s) s
/-- Changes the state. -/
def upd (f : State → State) : Act Unit := fun s => .ok () (f s)
/-- Ends early. -/
def halt {α : Type} (e : Stop) : Act α := fun s => .error e s
/-- Ends early with a wait, what has been done so far standing. -/
def waitKeep {α : Type} (w : Wait) : Act α := fun s => .error (.wait w (some s)) s
/-- Traps with a cause and an address, with no effect. -/
def trapAt {α : Type} (cause : Nat) (addr : W64) : Act α := halt (.trap (faultAt cause addr) none)
/-- Waits, with no effect. -/
def waitFor {α : Type} (w : Wait) : Act α := halt (.wait w none)
/-- A result or a fault. -/
def orTrap {α : Type} (x : Except FaultInfo α) : Act α :=
  match x with
  | .ok a => pure a
  | .error f => halt (.trap f none)

/-! Cause codes (Table 13-1). -/
def cADDR : Nat := 0x01
def cPAGE : Nat := 0x02
def cPROT : Nat := 0x03
def cALIGN : Nat := 0x04
def cDESC : Nat := 0x05
def cILLEGAL : Nat := 0x06
def cPRIV : Nat := 0x07
def cTSORDER : Nat := 0x08
def cFUTDOUBLE : Nat := 0x09
def cBAROVER : Nat := 0x0A
def cRINGUNDER : Nat := 0x0B
def cBMV : Nat := 0x0C
def cMADDER : Nat := 0x0D
def cSCALE : Nat := 0x0E
def cCFGLIVE : Nat := 0x0F
def cCFGBAD : Nat := 0x10
def cQBIND : Nat := 0x11
def cQFAULT : Nat := 0x12
def cSPILL : Nat := 0x13
def cECC : Nat := 0x14
def cCANCEL : Nat := 0x15
def cDUPSYM : Nat := 0x16
def cUNRES : Nat := 0x17
def cNOFIT : Nat := 0x18
def cRELOC : Nat := 0x19
def cBADOBJ : Nat := 0x1A

/-! ## Bytes, words, bit fields -/

/-- The number that little-endian bytes hold (R4). -/
def natOfBytes : List Byte → Nat
  | [] => 0
  | b :: r => b.toNat + 256 * natOfBytes r

/-- The low n bytes of a number, lowest address first (R4). -/
def bytesOfNat : Nat → Nat → List Byte
  | 0, _ => []
  | n + 1, v => BitVec.ofNat 8 v :: bytesOfNat n (v / 256)

/-- Bits [hi:lo] of a number. -/
def bits (v hi lo : Nat) : Nat := v / 2 ^ lo % 2 ^ (hi - lo + 1)

/-- Bit n of a number. -/
def bit (v n : Nat) : Bool := v / 2 ^ n % 2 == 1

/-- A number's low w bits as a signed value. -/
def sgn (w v : Nat) : Int := (BitVec.ofNat w v).toInt

/-- An integer as a number modulo 2^w. -/
def wrapI (w : Nat) (v : Int) : Nat := (BitVec.ofInt w v).toNat

/-! ## Locations (R156; DESIGN CHOICE, log 2) -/

def hbmBase : Nat := 2 ^ 40
def hostBase : Nat := 2 ^ 53
def peerBase : Nat := 2 ^ 54
/-- The location of an HBM offset of this package. -/
def locHbm (o : Nat) : Nat := hbmBase + o
/-- The location of a host physical address. -/
def locHost (pa : Nat) : Nat := hostBase + pa
/-- The location of an HBM offset of another package. -/
def locPeer (pkg o : Nat) : Nat := peerBase + pkg * 2 ^ 39 + o

/-- A byte of memory; 0 where nothing is listed (DESIGN CHOICE, log 3). -/
def rdByte (s : State) (loc : Nat) : Byte := getD s.mem 0 loc

/-- Writes a byte of memory, keeping the canonical form. -/
def wrByte (s : State) (loc : Nat) (b : Byte) : State := { s with mem := setD s.mem 0 loc b }

/-- The n bytes from a location up. -/
def rdBytes (s : State) (loc n : Nat) : List Byte := (range' loc n).map (rdByte s)

/-- Writes bytes from a location up. -/
def wrBytes : State → Nat → List Byte → State
  | s, _, [] => s
  | s, loc, b :: r => wrBytes (wrByte s loc b) (loc + 1) r

/-- The number in n bytes of memory. -/
def rdNat (s : State) (loc n : Nat) : Nat := natOfBytes (rdBytes s loc n)

/-- Canonical form of memory: addresses strictly rising, no listed byte 0. -/
abbrev memWf (s : State) : Bool := canonical s.mem 0

/-! ## Device registers by offset (R6) -/

/-- Reset values that are not 0: DOMCFG (Table 7-4), BUDDY (Table 13-10), PWRCTL (Table 14-11). -/
def devReset (off : Nat) : W64 :=
  if 0x100400 ≤ off ∧ off < 0x100600 then 0x3F00#64
  else if off = 0x100900 then BitVec.ofNat 64 (20 * 2 ^ 14)
  else if off = 0x100A20 then BitVec.ofNat 64 (240 * 2 ^ 4)
  else 0

/-- Whether an offset is assigned to a register (R12): the offsets of the spec's register tables, of 8 bytes each. -/
def regAssigned (off : Nat) : Bool :=
  let o := off / 8 * 8
  let in_ (b n : Nat) : Bool := decide (b ≤ o) && decide (o < b + 8 * n)
  o == 0x100000 || in_ 0x100100 16 || in_ 0x100200 2 || o == 0x100300 || in_ 0x100400 64 || in_ 0x100600 8 ||
  (in_ 0x100640 32 && (o / 8 % 8 != 0 || o == 0x100700)) || o == 0x100740 || in_ 0x100800 7 || o == 0x100840 ||
  o == 0x100880 || in_ 0x100900 6 || in_ 0x100940 4 || in_ 0x100A00 5 || in_ 0x100B00 12 ||
  (decide (0x200000 ≤ o) && decide (o < 0x202000) && decide ((o - 0x200000) % 0x800 < 1152)) ||
  (decide (0x202000 ≤ o) && decide (o < 0x202800) && decide ((o - 0x202000) % 0x200 < 288))

/-- The stored value of a device register. -/
def dev (s : State) (off : Nat) : Nat := (getD s.dev (devReset off) off).toNat

/-- Stores a device register's value. -/
def setDev (s : State) (off : Nat) (v : W64) : State := { s with dev := setD s.dev (devReset off) off v }

/-! ## Contexts, cores -/

/-- Die, core of the die, context of the core, by cid (R193). -/
def cidDie (c : Nat) : Nat := c / 1024
def cidCore (c : Nat) : Nat := c / 8 % 128
def cidCtx (c : Nat) : Nat := c % 8
/-- The core's key 128 * die + core. -/
def coreOf (c : Nat) : Nat := c / 8
/-- The cluster's key 8 * die + cluster (R437). -/
def clusterOf (core : Nat) : Nat := core / 16

/-- A context of the package. -/
def ctxOf (s : State) (c : Nat) : Ctx := if c = s.cur then s.cx else getD s.others Ctx.reset c

/-- Sets a context of the package. -/
def setCtx (s : State) (c : Nat) (x : Ctx) : State :=
  if c = s.cur then { s with cx := x } else { s with others := setD s.others Ctx.reset c x }

/-- Makes a context the current one. -/
def focus (s : State) (c : Nat) : State :=
  if c = s.cur then s
  else { s with cur := c, cx := getD s.others Ctx.reset c,
                others := setD (del s.others c) Ctx.reset s.cur s.cx }

/-- Runs an operation with a context in focus and then returns to the one in focus before. -/
def withCtx (s : State) (c : Nat) (f : State → State) : State := focus (f (focus s c)) s.cur

/-- Runs an operation on one context's registers. -/
def updCtx (s : State) (c : Nat) (f : Ctx → Ctx) : State := setCtx s c (f (ctxOf s c))

def coreAt (s : State) (k : Nat) : Core := getD s.cores Core.reset k
def updCore (s : State) (k : Nat) (f : Core → Core) : State :=
  { s with cores := setD s.cores Core.reset k (f (coreAt s k)) }
def clusterAt (s : State) (k : Nat) : Cluster := getD s.clusters Cluster.reset k
def updCluster (s : State) (k : Nat) (f : Cluster → Cluster) : State :=
  { s with clusters := setD s.clusters Cluster.reset k (f (clusterAt s k)) }
def nodeAt (s : State) (k : Nat) : Node := getD s.nodes Node.reset k
def updNode (s : State) (k : Nat) (f : Node → Node) : State :=
  { s with nodes := setD s.nodes Node.reset k (f (nodeAt s k)) }
def walkerAt (s : State) (k : Nat) : Walker := getD s.walkers Walker.reset k
def updWalker (s : State) (k : Nat) (f : Walker → Walker) : State :=
  { s with walkers := setD s.walkers Walker.reset k (f (walkerAt s k)) }
def dispAt (s : State) (k : Nat) : Dispatcher := getD s.disp Dispatcher.reset k
def updDisp (s : State) (k : Nat) (f : Dispatcher → Dispatcher) : State :=
  { s with disp := setD s.disp Dispatcher.reset k (f (dispAt s k)) }
def engineAt (s : State) (k : Nat) : Engine := getD s.engines Engine.reset k
def updEngine (s : State) (k : Nat) (f : Engine → Engine) : State :=
  { s with engines := setD s.engines Engine.reset k (f (engineAt s k)) }
def domainAt (s : State) (k : Nat) : Domain := getD s.domains Domain.reset k
def updDomain (s : State) (k : Nat) (f : Domain → Domain) : State :=
  { s with domains := setD s.domains Domain.reset k (f (domainAt s k)) }
def elemAt (s : State) (k : Nat) : Elem := (look s.fab.elems k).getD Elem.reset
def updElem (s : State) (k : Nat) (f : Elem → Elem) : State :=
  { s with fab := { s.fab with elems := put s.fab.elems k (f (elemAt s k)) } }
def cellAt (s : State) (k : Nat) : Cell := getD s.fab.cells Cell.reset k
def updCell (s : State) (k : Nat) (f : Cell → Cell) : State :=
  { s with fab := { s.fab with cells := setD s.fab.cells Cell.reset k (f (cellAt s k)) } }
def endpAt (s : State) (k : Nat) : Endp := getD s.fab.endps Endp.reset k
def updEndp (s : State) (k : Nat) (f : Endp → Endp) : State :=
  { s with fab := { s.fab with endps := setD s.fab.endps Endp.reset k (f (endpAt s k)) } }

/-- A fresh free value's number. -/
def draw (s : State) : Nat × State := (s.draws, { s with draws := s.draws + 1 })

/-! ## Sites (R17, R346, R437) -/

/-- The code at a place of a run list. -/
def runCode : List (Nat × Nat) → Nat → Nat
  | [], _ => 0
  | (n, c) :: r, i => if i < n then c else runCode r (i - n)

/-- The kind of a site (Table 12-1); 0 for none. -/
def siteKind (s : State) (die site : Nat) : Nat :=
  if 4 ≤ die ∨ 2304 ≤ site then 0
  else getD s.siteMap (runCode Config.siteRuns site) (2304 * die + site)

/-- What an S-address names (Table 1-3). -/
inductive SPlace where
  | bank | node (n : Nat) | absent
deriving DecidableEq, Repr

/-- The site key of an S-address. -/
def siteKey (a : Nat) : Nat := 2304 * (a / 2 ^ 30 % 4) + a / 2 ^ 18 % 4096

/-- Where an S-address lies (R17). -/
def sPlace (s : State) (a : Nat) : SPlace :=
  let off := a % 2 ^ 18
  match siteKind s (a / 2 ^ 30 % 4) (a / 2 ^ 18 % 4096) with
  | 0xB => .bank
  | 0xA => if off < 0x8000 then .node 0 else if off < 0x10000 then .node 1 else .absent
  | _ => .absent

/-- The sites of a kind on a die, in ascending order, from a site on; fuel counts the sites looked at. -/
def siteNth (s : State) (die kind : Nat) : Nat → Nat → Nat → Option Nat
  | 0, _, _ => none
  | f + 1, site, n =>
    if siteKind s die site = kind then (if n = 0 then some site else siteNth s die kind f (site + 1) (n - 1))
    else siteNth s die kind f (site + 1) n

/-- The n-th site of a kind on a die (R437). -/
def siteOf (s : State) (die kind n : Nat) : Option Nat := siteNth s die kind 2304 0 n

/-- How many sites of a kind lie before a site of a die: its number in its kind (R437). -/
def siteRank (s : State) (die kind site : Nat) : Nat :=
  ((range' 0 site).filter (fun i => siteKind s die i = kind)).length

/-- The site key of a core (R437). -/
def coreSite (s : State) (core : Nat) : Nat :=
  2304 * (core / 128) + (siteOf s (core / 128) 0xE (core % 128)).getD 0

/-- Whether a site is fenced out (R407). -/
def fenced (s : State) (key : Nat) : Bool := getD s.fmap false key

/-! ## S-space access checks (R17-R20, R35) -/

/-- The region registers: ORD and SUP of an S-address (Table 1-4). -/
def srgn (s : State) (a : Nat) : Bool × Bool :=
  (range' 0 16).foldl (fun acc n =>
    let r := dev s (0x100100 + 8 * n)
    if bit r 0 && decide (bits r 31 6 ≤ a / 64) && decide (a / 64 ≤ bits r 63 38)
    then (acc.1 || bit r 1, acc.2 || bit r 2) else acc) (false, false)

/-- The checks of an S-space access in R35's order: ADDR, ALIGN where the address is not one that the access may name, then
supervisor regions. -/
def checkPlace (s : State) (ea : W64) (aligned : Bool) (super : Bool) : Except FaultInfo Nat :=
  let a := ea.toNat
  if 2 ^ 32 ≤ a then .error (faultAt cADDR ea)
  else if sPlace s a = .absent then .error (faultAt cADDR ea)
  else if !aligned then .error (faultAt cALIGN ea)
  else if !super && (srgn s a).2 then .error (faultAt cPROT ea)
  else .ok a

/-- The checks of an S-space access of a size (R17-R20, R35). -/
def checkS (s : State) (ea : W64) (align : Nat) (super : Bool) : Except FaultInfo Nat :=
  checkPlace s ea (ea.toNat % align == 0) super

/-- The checks of a named object in a bank (R319), and of an atomic (R50): an operand node fails ALIGN. -/
def checkObj (s : State) (ea : W64) (align : Nat) (super : Bool) : Except FaultInfo Nat :=
  checkPlace s ea (sPlace s ea.toNat == .bank && ea.toNat % align == 0) super

/-! ## Translation (R10-R12, R21-R35) -/

/-- What an access does (Table 1-9). -/
inductive Acc where
  | rd | wr | rw | fetch
deriving DecidableEq, Repr

/-- A translated access: target (T), physical address, location, and the attributes C, O, P and HP;
and its VA or S-address. -/
structure Xl where
  va : W64
  t : Nat
  pa : Nat
  loc : Nat
  c : Bool
  o : Bool
  p : Bool
  hp : Bool
deriving DecidableEq, Repr

/-- Whether a VA is canonical (R10). -/
def canon (va : W64) : Bool := va == (va.setWidth 57).signExtend 64

/-- The index of a level (Table 1-5). -/
def vaIndex (va level : Nat) : Nat :=
  match level with
  | 0 => bits va 56 55
  | 1 => bits va 54 42
  | 2 => bits va 41 29
  | _ => bits va 28 16

/-- The low bit of the VA bits that a level's index and those above it cover: the log2 size of a leaf there. -/
def lvlBits (level : Nat) : Nat :=
  match level with
  | 0 => 55
  | 1 => 42
  | 2 => 29
  | _ => 16

/-- What an entry is (Table 1-8): one that ends a walk in PAGE, a pointer to a table, or a leaf. -/
inductive Entry where
  | page
  | table (off : Nat)
  | leaf (e : TlbEnt)
deriving DecidableEq, Repr

/-- An entry of a table of a level, for a VA (Table 1-8). -/
def entryOf (va level e : Nat) : Entry :=
  let isLeaf := bit e 1 || bit e 2 || bit e 3
  let addr := bits e 51 16
  if !bit e 0 then .page
  else if bits e 63 52 ≠ 0 then .page
  else if (isLeaf && level == 0) || (!isLeaf && level == 3) then .page
  else if !isLeaf && decide (bits e 51 39 ≠ 0) then .page
  else if isLeaf && !bit e 1 && bit e 2 then .page
  else if isLeaf && decide (addr % 2 ^ (lvlBits level - 16) ≠ 0) then .page
  else if isLeaf && bits e 7 6 == 3 && (bit e 5 || bit e 8) then .page
  else if !isLeaf then .table (bits e 38 16 * 2 ^ 16)
  else .leaf { page := va % 2 ^ 57 / 2 ^ lvlBits level * 2 ^ lvlBits level, bits := lvlBits level, leaf := BitVec.ofNat 64 e }

/-- The pointer that a walk passed at an entry of a level. -/
def passed (va level table : Nat) : PwEnt := { level := level + 1, key := va % 2 ^ 57 / 2 ^ lvlBits level, table := table }

/-- A walk from a table of a level, made whole (R31). -/
def walk (s : State) (va : Nat) : Nat → Nat → Nat → Option TlbEnt
  | 0, _, _ => none
  | f + 1, level, table =>
    match entryOf va level (rdNat s (locHbm (table + 8 * vaIndex va level)) 8) with
    | .page => none
    | .table t => walk s va f (level + 1) t
    | .leaf e => some e

/-- A held leaf that covers a VA. -/
def tlbFind (l : List TlbEnt) (va : Nat) : Option TlbEnt :=
  l.find? (fun e => va % 2 ^ 57 / 2 ^ e.bits * 2 ^ e.bits = e.page)

/-- The deepest held pointer for a VA. -/
def pwFind (l : List PwEnt) (va : Nat) : Option PwEnt :=
  let at_ (lv : Nat) := l.find? (fun e => e.level = lv ∧ e.key = va % 2 ^ 57 / 2 ^ lvlBits (lv - 1))
  match at_ 3 with
  | some e => some e
  | none =>
    match at_ 2 with
    | some e => some e
    | none => at_ 1

/-- The offset of the root table (R22). -/
def rootTable (s : State) : Nat := bits (dev s 0x100000) 38 5 * 32

/-- Where a walk of a die for a VA begins: at the deepest held pointer, else at the root (R22, R29). -/
def walkFrom (s : State) (die va : Nat) : Nat × Nat :=
  let w := walkerAt s die
  match pwFind (w.cache ++ w.roots) va with
  | some e => (e.level, e.table)
  | none => (0, rootTable s)

/-- A walk of a die for a VA, made whole: the translation of a unit that cannot wait for the walker (log 1). -/
def walkVa (s : State) (die : Nat) (va : Nat) : Option TlbEnt :=
  let p := walkFrom s die va
  walk s va 4 p.1 p.2

/-- The pointers that a walk from a table of a level passes. -/
def passes (s : State) (va : Nat) : Nat → Nat → Nat → List PwEnt
  | 0, _, _ => []
  | f + 1, level, table =>
    match entryOf va level (rdNat s (locHbm (table + 8 * vaIndex va level)) 8) with
    | .table t => passed va level t :: passes s va f (level + 1) t
    | _ => []

/-- The most recent entries of a list, with a new one first (R29). -/
def keep {α : Type} [DecidableEq α] (n : Nat) (x : α) (l : List α) : List α := (x :: l.filter (· ≠ x)).take n

/-- A leaf enters an L2 TLB of 256 sets of 8 ways, its set found by the page number of its size; of a full set the least
recently used leaf leaves (R29). -/
def keepL2 (x : TlbEnt) (l : List TlbEnt) : List TlbEnt :=
  let set_ (e : TlbEnt) : Nat := e.page / 2 ^ e.bits % 256
  let rest := l.filter (· ≠ x)
  let same := rest.filter (fun e => set_ e = set_ x)
  match same[7]? with
  | none => x :: rest
  | some y => x :: rest.filter (· ≠ y)

/-- A pointer enters, or is used in, a page-walk cache: 64 pointers, and those of the 4 root entries (R29). -/
def keepPtr (w : Walker) (p : PwEnt) : Walker :=
  if p.level = 1 then { w with roots := keep 4 p w.roots } else { w with cache := keep 64 p w.cache }

/-- A whole walk leaves the pointers that it used and passed in its die's page-walk cache (R29). -/
def walkNote (s : State) (die va : Nat) : State :=
  let p := walkFrom s die va
  let used := (pwFind ((walkerAt s die).cache ++ (walkerAt s die).roots) va).toList
  (used ++ passes s va 4 p.1 p.2).foldl (fun s e => updWalker s die (fun k => keepPtr k e)) s

/-- The 64 KiB page of a VA: by it a miss or a walk joins an earlier one of the same page. Before a walk has ended, the size of the
page is not known, and the spec does not say what the same page then is (DESIGN CHOICE, log 6). -/
def pageOf (va : Nat) : Nat := va % 2 ^ 57 / 2 ^ 16

/-- A walk takes in the requests that join it. -/
def Walk.join (w : Walk) (clusters : List Nat) (agts : List Joined) : Walk :=
  { w with clusters := w.clusters ++ clusters.filter (fun c => !w.clusters.contains c)
           agts := w.agts ++ agts.filter (fun a => !w.agts.contains a) }

/-- A request for a walk of a page at a die's walker (R31): it joins a walk of that page, takes a slot or a place in the
queue, or, both full, is held back. -/
def walkReq (s : State) (die page : Nat) (clusters : List Nat) (agts : List Joined) : Option State :=
  let k := walkerAt s die
  let w : Walk := { page := page, pos := none, clusters := clusters, agts := agts }
  let join (x : Walk) : Walk := if x.page = page then x.join clusters agts else x
  if k.walks.any (fun x => x.page == page) || k.queue.any (fun x => x.page == page) then
    some (updWalker s die (fun k => { k with walks := k.walks.map join, queue := k.queue.map join }))
  else if k.walks.length < 64 then some (updWalker s die (fun k => { k with walks := k.walks ++ [w] }))
  else if k.queue.length < 512 then some (updWalker s die (fun k => { k with queue := k.queue ++ [w] }))
  else none

/-- A miss of a cluster's L2 TLB: it joins an outstanding one of its page, or is the next of at most 32; else, or where the
walker holds it back, it waits (R30, R31). -/
def missed (s : State) (cl page : Nat) : State :=
  let c := clusterAt s cl
  if c.misses.contains page ∨ 32 ≤ c.misses.length then s
  else
    match walkReq s (cl / 8) page [cl] [] with
    | none => s
    | some s1 => updCluster s1 cl (fun c => { c with misses := c.misses ++ [page] })

/-- What a core's TLBs say of a VA: the leaf, with the package as it then stands; a walk that answered with a fault; or a
miss, which the context waits for. -/
inductive LeafRes where
  | held (e : TlbEnt) (s : State)
  | faults
  | walks (s : State)

/-- The leaf for a VA as a context sees it: from its core's TLB, from the answer of a walk, from its cluster's TLB; else a
miss (R29-R31, R36). -/
def coreLeaf (s : State) (cid : Nat) (va : Nat) : LeafRes :=
  let core := coreOf cid
  let hold (s : State) (e : TlbEnt) : State := updCore s core (fun c => { c with tlb := keep 64 e c.tlb })
  match tlbFind (coreAt s core).tlb va with
  | some e => .held e (hold s e)
  | none =>
    match (ctxOf s cid).walked.find? (fun x => x.1 = pageOf va) with
    | some (_, some e) => .held e (hold s e)
    | some (_, none) => .faults
    | none =>
      match tlbFind (clusterAt s (clusterOf core)).tlb va with
      | some e => .held e (hold (updCluster s (clusterOf core) (fun c => { c with tlb := keepL2 e c.tlb })) e)
      | none => .walks (missed s (clusterOf core) (pageOf va))

/-- Who translates at the walker of a die: an address generator with a TLB, by its number in the state and the copy it works
for; a unit without one, by a number from 2 ^ 20 on; or one that walks whole (R32). -/
structure Agt where
  die : Nat
  tlb : Option Nat
  copy : Nat

/-- The number of the first unit that has no TLB, and the copy for which an engine works on its queues. -/
def unitBase : Nat := 2 ^ 20
def queueCopy : Nat := 2 ^ 64

/-- The read or write AGT of an engine for a copy (R135), and its read AGT for its queues, which R29 leaves between the two (DESIGN
CHOICE, log 19); the AGT of an element context (R375); a unit of a die that has no TLB: the configuration port for a context, the
readout of a graph, a Dispatcher for a queue; and one that walks whole. -/
def engineAgt (eng : Nat) (wr : Bool) (copy : Nat) : Agt := { die := eng / 16, tlb := some (2 * eng + wr.toNat), copy := copy }
def queueAgt (eng : Nat) : Agt := engineAgt eng false queueCopy
def elemAgt (k : Nat) : Agt := { die := k / 4 / 2304, tlb := some (128 + k), copy := 0 }
def unitAgt (die unit : Nat) : Agt := { die := die, tlb := some (unitBase + unit), copy := 0 }
def cfgAgt (die cid : Nat) : Agt := unitAgt die cid
def graphAgt (die base : Nat) : Agt := unitAgt die (2 ^ 13 + base / 2 ^ 18)
def dispAgt (die queue : Nat) : Agt := unitAgt die (2 ^ 15 + queue)
def wholeAgt (die : Nat) : Agt := { die := die, tlb := none, copy := 0 }

/-- The leaves that an AGT holds. -/
def agtTlb (s : State) (k : Nat) : List TlbEnt := getD s.agtTlbs [] k

/-- The leaf for a VA as an AGT sees it: from its TLB, where its miss has been answered; or the end of a whole walk (R32). -/
def agtLeaf (s : State) (u : Agt) (va : Nat) : Option TlbEnt :=
  match u.tlb with
  | some k => tlbFind (agtTlb s k) va
  | none => walkVa s u.die va

/-- An AGT holds a leaf, of 16; a unit without a TLB keeps the answers of its access until it is done (R29). -/
def agtHold (s : State) (e : TlbEnt) (k : Nat) : State :=
  { s with agtTlbs := setD s.agtTlbs [] k (keep (if unitBase ≤ k then 2 ^ 16 else 16) e (agtTlb s k)) }

/-- The page for which a walk that an AGT asked for ended in a fault, as its copy or its element keeps it; and what it then
is. -/
def agtBad (s : State) (u : Agt) : Option Nat :=
  match u.tlb with
  | none => none
  | some k =>
    if unitBase ≤ k then look s.unitBad k
    else if k < 128 then
      (if u.copy = queueCopy then (engineAt s (k / 2)).badPage
       else ((engineAt s (k / 2)).copies.find? (fun c => c.id = u.copy)).bind (·.badPage))
    else (look s.fab.elems (k - 128)).bind (·.badPage)
def setAgtBad (s : State) (k copy : Nat) (page : Option Nat) : State :=
  if unitBase ≤ k then
    { s with unitBad := match page with
      | some p => put s.unitBad k p
      | none => del s.unitBad k }
  else if k < 128 then
    if copy = queueCopy then updEngine s (k / 2) (fun g => { g with badPage := page })
    else updEngine s (k / 2) (fun g => { g with copies := g.copies.map (fun c => if c.id = copy then { c with badPage := page } else c) })
  else { s with fab := { s.fab with elems := s.fab.elems.map (fun e => if e.1 = k - 128 then (e.1, { e.2 with badPage := page }) else e) } }

/-- An AGT's demand for a page that its TLB does not hold asks the walker for it, and waits (R32, R36): none where the page
is held, or its walk has answered with a fault, or the unit walks whole. -/
def agtMiss (s : State) (u : Agt) (va : W64) : Option State :=
  match u.tlb with
  | none => none
  | some k =>
    if !canon va || (tlbFind (agtTlb s k) va.toNat).isSome || agtBad s u == some (pageOf va.toNat) then none
    else some ((walkReq s u.die (pageOf va.toNat) [] [{ tlb := k, copy := u.copy, demand := true }]).getD s)

/-- An AGT whose next element lies near the end of a page asks for the walk of the next page that its TLB does not hold;
nothing comes of a request that is held back or would fault (R32). -/
def agtAdvance (s : State) (u : Agt) (va : W64) : State :=
  match u.tlb with
  | none => s
  | some k =>
    match tlbFind (agtTlb s k) va.toNat with
    | none => s
    | some e =>
      let v := va.toNat % 2 ^ 57
      let nx := (v / 2 ^ e.bits * 2 ^ e.bits + 2 ^ e.bits) % 2 ^ 57
      if 4096 < v / 2 ^ e.bits * 2 ^ e.bits + 2 ^ e.bits - v ∨ (tlbFind (agtTlb s k) nx).isSome then s
      else (walkReq s u.die (pageOf nx) [] [{ tlb := k, copy := u.copy, demand := false }]).getD s

/-- Contexts, the one in focus first. -/
def allCids (s : State) : List Nat := s.cur :: s.others.map (·.1)

/-- A walk of a die ends: its slot goes to the head of the queue; every request that joined it has its answer, and those that
were held back try again (R30, R31, R33, R36). -/
def walkEnd (s : State) (die i : Nat) (w : Walk) (ans : Option TlbEnt) : State :=
  let s1 := updWalker s die (fun k => { k with walks := k.walks.eraseIdx i ++ k.queue.take 1, queue := k.queue.drop 1 })
  let s2 := w.clusters.foldl (fun s cl => updCluster s cl (fun c => { c with
    misses := c.misses.erase w.page
    tlb := match ans with
      | some e => keepL2 e c.tlb
      | none => c.tlb })) s1
  let s3 := (allCids s2).foldl (fun s cid =>
    match (ctxOf s cid).wait with
    | some (.walk p) =>
      let cl := clusterOf (coreOf cid)
      if cidDie cid ≠ die then s
      else if p = w.page ∧ w.clusters.contains cl then
        let s' := match ans with
          | some e => updCore s (coreOf cid) (fun c => { c with tlb := keep 64 e c.tlb })
          | none => s
        updCtx s' cid (fun c => { c with wait := none, walked := c.walked ++ [(w.page, ans)] })
      else if (clusterAt s cl).misses.contains p then s
      else updCtx s cid (fun c => { c with wait := none })
    | _ => s) s2
  w.agts.foldl (fun s a =>
    match ans with
    | some e => agtHold s e a.tlb
    | none => if a.demand then setAgtBad s a.tlb a.copy (some w.page) else s) s3

/-- The packages of the system, SX * SY * SZ of PKGID (R418), and the number of this package. -/
def sysSize (s : State) : Nat :=
  let v := dev s 0x100A10
  (bits v 15 13 + 1) * (bits v 20 16 + 1) * (bits v 25 21 + 1)
def ownPkg (s : State) : Nat := bits (dev s 0x100A10) 12 0

/-- The permission checks of Table 1-9. -/
def permits (leaf : Nat) (acc : Acc) (super : Bool) : Bool :=
  let us := bit leaf 4
  (match acc with
   | .rd => bit leaf 1
   | .wr => bit leaf 2
   | .rw => bit leaf 1 && bit leaf 2
   | .fetch => bit leaf 3 && decide (bits leaf 7 6 ≤ 1)) &&
  (if super then (if acc = .fetch then !us else true) else us)

/-- Whether a peer access of a length at an offset lies in this package's exposure window (R15). -/
def exposed (s : State) (o n : Nat) : Bool :=
  let b := dev s 0x100200
  bit b 0 && decide (bits b 38 16 * 2 ^ 16 ≤ o) &&
    decide (o + n ≤ (bits (dev s 0x100208) 38 16 + 1) * 2 ^ 16)

/-- The PA and target of a leaf, with the checks from Table 1-9 on (R24, R25, R35, Table 1-1). cls says whether the
access is a scalar core access, for a device-register page (R16). -/
def formXl (s : State) (e : TlbEnt) (va : W64) (acc : Acc) (n : Nat) (cls : Bool) (super : Bool) :
    Except FaultInfo Xl :=
  let leaf := e.leaf.toNat
  let v := va.toNat
  let t := bits leaf 7 6
  let pa := bits leaf 51 e.bits * 2 ^ e.bits + v % 2 ^ e.bits
  let x : Xl := { va := va, t := t, pa := pa, loc := locHbm (pa % 2 ^ 39), c := bit leaf 8, o := bit leaf 5, p := bit leaf 9,
                  hp := bit leaf 10 }
  if !permits leaf acc super then .error (faultAt cPROT va)
  else
    match t with
    | 0 => if 2 ^ 39 ≤ pa then .error (faultAt cADDR va) else .ok x
    | 1 => .ok { x with loc := locHost pa }
    | 2 =>
      let pkg := pa / 2 ^ 39
      if sysSize s ≤ pkg then .error (faultAt cADDR va)
      else if pkg = ownPkg s then (if exposed s (pa % 2 ^ 39) n then .ok x else .error (faultAt cPROT va))
      else if Config.peerExposes pkg (pa % 2 ^ 39) s.draws then .ok { x with loc := locPeer pkg (pa % 2 ^ 39) }
      else .error (faultAt cPROT va)
    | _ =>
      if 2 ^ 32 ≤ pa ∨ regAssigned pa = false then .error (faultAt cADDR va)
      else if !cls then .error (faultAt cPROT va)
      else if n < 4 then .error (faultAt cALIGN va)
      else .ok { x with loc := 0 }

/-- A core's translation of an access of n bytes (R35): canonical, alignment, entries, permissions, target. -/
def translate (va : W64) (acc : Acc) (n align : Nat) (cls : Bool) : Act Xl := fun s =>
  if !canon va then .error (.trap (faultAt cADDR va) none) s
  else if va.toNat % align ≠ 0 then .error (.trap (faultAt cALIGN va) none) s
  else
    match coreLeaf s s.cur va.toNat with
    | .faults => .error (.trap (faultAt cPAGE va) none) s
    | .walks s1 => .error (.wait (.walk (pageOf va.toNat)) (some s1)) s1
    | .held e s1 =>
      match formXl s e va acc n cls s.cx.mode with
      | .error f => .error (.trap f none) s
      | .ok x => .ok x s1

/-- The translation of an AGT, or of a unit of a die (R32, R35, R135). -/
def agtXlOf (s : State) (u : Agt) (va : W64) (acc : Acc) (n align : Nat) (super : Bool) : Except FaultInfo Xl :=
  if !canon va then .error (faultAt cADDR va)
  else if va.toNat % align ≠ 0 then .error (faultAt cALIGN va)
  else
    match agtLeaf s u va.toNat with
    | none => .error (faultAt cPAGE va)
    | some e => formXl s e va acc n false super
def agtXl (s : State) (die : Nat) (va : W64) (acc : Acc) (n align : Nat) (super : Bool) : Except FaultInfo Xl :=
  agtXlOf s (wholeAgt die) va acc n align super

/-- A unit without a TLB is done with an access: it holds no answer of a walk any more. -/
def unitDone (s : State) (u : Agt) : State :=
  match u.tlb with
  | some k => if unitBase ≤ k then setAgtBad { s with agtTlbs := del s.agtTlbs k } k 0 none else s
  | none => s

/-! ## Poison (R43, R402) -/

/-- Whether a location lies in a bank, so that its word has tag and poison bits of its own. -/
def isBank (s : State) (loc : Nat) : Bool := decide (loc < 2 ^ 32) && sPlace s loc == .bank

/-- Whether any of n bytes is poisoned. -/
def poisoned (s : State) (loc n : Nat) : Bool :=
  if loc < 2 ^ 32 then (range' loc n).any (fun l => getD s.poison false (l / 8))
  else (range' loc n).any (fun l => getD s.linePoison false (l / 64))

/-- The poison marks after a clean write of n bytes: a word or line written whole is clear (R43, R402). -/
def unpoison (s : State) (loc n : Nat) : State :=
  if loc < 2 ^ 32 then
    { s with poison := s.poison.filter (fun p => decide (8 * p.1 < loc) || decide (loc + n < 8 * p.1 + 8)) }
  else
    { s with linePoison := s.linePoison.filter (fun p => decide (64 * p.1 < loc) || decide (loc + n < 64 * p.1 + 64)) }

/-- A write of n bytes takes the author of each line whose first byte it writes (R135). -/
def disown (s : State) (loc n : Nat) : State :=
  if s.authors.isEmpty then s
  else { s with authors := s.authors.filter (fun p => decide (64 * p.1 < loc) || decide (loc + n ≤ 64 * p.1)) }

/-- A line whose first byte is written has an author (R135, R149). -/
def signBy (s : State) (loc : Nat) (a : Author) : State :=
  if loc % 64 = 0 then { s with authors := put s.authors (loc / 64) a } else s

/-- The stack of an HBM offset (R13). -/
def stackOf (o : Nat) : Nat := Nat.xor (Nat.xor (bits o 11 9) (bits o 20 18)) (bits o 29 27) % 8

/-- The home die of a location: of S-space by its address; of HBM by its stack (R13, R63). -/
def homeDie (loc : Nat) : Nat := if loc < 2 ^ 32 then loc / 2 ^ 30 else stackOf (loc - hbmBase) / 2

/-- Counts an uncorrectable error in UE of a die's ECNT, saturating (R403). -/
def countUe (s : State) (die : Nat) : State :=
  let v := dev s (0x100940 + 8 * die)
  if bits v 47 32 = 0xFFFF then s else setDev s (0x100940 + 8 * die) (BitVec.ofNat 64 (v + 2 ^ 32))

/-- Counts a correction in CE of a die's ECNT, saturating (R403). -/
def countCe (s : State) (die : Nat) : State :=
  let v := dev s (0x100940 + 8 * die)
  if bits v 31 0 = 0xFFFFFFFF then s else setDev s (0x100940 + 8 * die) (BitVec.ofNat 64 (v + 1))

/-- Marks the words or lines of n bytes poisoned (R402). -/
def setPoison (s : State) (loc n : Nat) : State :=
  if loc < 2 ^ 32 then
    (range' loc n).foldl (fun s l => { s with poison := setD s.poison false (l / 8) true }) s
  else
    (range' loc n).foldl (fun s l => { s with linePoison := setD s.linePoison false (l / 64) true }) s

/-- How many of the words or lines of n bytes carry no mark yet. -/
def unmarked (s : State) (loc n : Nat) : Nat :=
  let count (u : Nat) (m : FMap Bool) : Nat :=
    ((range' (loc / u) ((loc + n - 1) / u + 1 - loc / u)).filter (fun w => !getD m false w)).length
  if n = 0 then 0 else if loc < 2 ^ 32 then count 8 s.poison else count 64 s.linePoison

/-- Marks the words or lines of n bytes poisoned, counting each mark that it sets in UE of the home die's ECNT; a line of host or peer
memory carries the mark there (R402, R403). -/
def markPoison (s : State) (loc n : Nat) : State :=
  if hostBase ≤ loc then setPoison s loc n
  else setPoison ((range' 0 (unmarked s loc n)).foldl (fun s _ => countUe s (homeDie loc)) s) loc n

/-! ## Atomic engines' lines and the L1 (R54-R60) -/

/-- The clusters' keys. -/
def allClusters : List Nat := range' 0 32

/-- Recalls a line from every atomic engine: written back and dropped (R56). -/
def recallLine (s : State) (line : Nat) : State :=
  (s.clusters).foldl (fun s p =>
    match p.2.lines.find? (fun l => l.line = line) with
    | none => s
    | some l =>
      updCluster (wrBytes s (64 * line) (bytesOfNat 64 l.data.toNat)) p.1
        (fun c => { c with lines := c.lines.filter (fun l => l.line ≠ line) })) s

/-- A host port that holds a line of device memory is asked for it with BISnp and gives it up, before a device-side access is served
(R414). -/
def giveUp (s : State) (line : Nat) : State :=
  if (look s.host.held line).isSome then { s with host := { s.host with held := del s.host.held line } } else s

/-- A posted atomic of a context to a line has been performed (R280). -/
def postedDone (s : State) (cid : Option Nat) (line : Nat) : State :=
  match cid with
  | none => s
  | some c => updCtx s c (fun x => { x with posted := x.posted.eraseP (fun p => p.line = line) })

/-- Writes the new values of the comparator's entries for a word, oldest first: a later access of the word waits for
them (R53). -/
def settleWord (s : State) (loc : Nat) : State :=
  if 2 ^ 32 ≤ loc then s
  else
    let k := 3 * siteKey loc
    match look s.nodes k with
    | none => s
    | some n =>
      let s1 := n.inflight.foldl (fun s e =>
        if e.1.loc / 8 = loc / 8 then
          postedDone (wrBytes s e.1.loc (bytesOfNat e.1.size e.2.toNat)) e.1.cid (e.1.loc / 64)
        else s) s
      updNode s1 k (fun n => { n with inflight := n.inflight.filter (fun e => e.1.loc / 8 ≠ loc / 8) })

/-- Settles every word of n bytes. -/
def settle (s : State) (loc n : Nat) : State :=
  if 2 ^ 32 ≤ loc ∨ s.nodes.isEmpty then s
  else (range' (loc / 8) ((loc + n - 1) / 8 + 1 - loc / 8)).foldl (fun s w => settleWord s (8 * w)) s

/-- The flits of some held packets that are not sent yet. -/
def flitsOf (ps : List LinkPkt) : Nat := (ps.map (fun p => p.pkt.len - p.sent)).foldl (· + ·) 0

/-- Whether the injection point of the links has room for a packet of some flits (R422). -/
def injectRoom (s : State) (len : Nat) : Bool := decide (flitsOf (s.host.pkts.filter (fun p => p.inp = 12)) + len ≤ 16)

/-- A packet enters the links behind those of this package before it, and while their flits fill the injection point it waits where it
comes from (R422); or waits for the next mirror point while mirroring is on (R410). -/
def inject (s : State) (p : Packet) (gated : Bool) : State :=
  let need := if gated && bit (dev s 0x100900) 0 then s.host.points + 1 else 0
  { s with host := { s.host with
      pkts := s.host.pkts ++ [{ id := s.host.pktNext, pkt := p, dim := 0, need := need, inp := 12, link := none, sent := 0 }]
      pktNext := s.host.pktNext + 1 } }

/-- The die of the unit whose access is in progress: that of the context in focus where no other is said to be (Table 14-6). -/
def actingDie (s : State) : Nat := s.host.unit.getD (cidDie s.cur)

/-- An access of a location by a unit of a die. -/
def fromDie (die loc : Nat) (f : State → State) (s : State) : State :=
  if peerBase ≤ loc then
    let t := f { s with host := { s.host with unit := some die } }
    { t with host := { t.host with unit := s.host.unit } }
  else f s

/-- A packet with nothing in it, for a package. -/
def packetTo (s : State) (dst die len : Nat) : Packet :=
  { src := ownPkg s, dst := dst, die := die, sdie := actingDie s, len := len, reserved := false, mirror := false, msg := none, acc := none, circ := none, ret := [],
    par := false, e := false, tag := 0 }

/-- A request to a peer, of some bytes at a location of its memory, enters the links: a read, a write, or an atomic by its kind
(R15, R57). -/
def peerSend (s : State) (loc n kind data expected : Nat) : State :=
  let o := loc - peerBase
  inject s { packetTo s (o / 2 ^ 39) 0 (if kind = 1 ∧ 64 < n then 2 else 1) with
    acc := some { off := o % 2 ^ 39, len := n, kind := kind, data := data, expected := expected } } false

/-- The offset of a location of HBM in the windows in force, taken in their order: where the mirror holds it (R410). -/
def mirrorOffset (s : State) (loc : Nat) : Option Nat :=
  let o := loc - hbmBase
  ((range' 0 4).foldl (fun (acc : Nat × Option Nat) i =>
    let w := dev s (0x100908 + 8 * i)
    let lo := bits w 12 3 * 2 ^ 29
    let hi := (bits w 22 13 + 1) * 2 ^ 29
    if !bit w 0 ∨ hi ≤ lo then acc
    else (acc.1 + (hi - lo), acc.2.or (if lo ≤ o ∧ o < hi then some (acc.1 + (o - lo)) else none))) (0, none)).2

/-- A committed write of HBM goes to the buddy's mirror, where a window in force covers it, as a write that follows those before it
(R410; DESIGN CHOICE, log 43). -/
def mirrorSend (s : State) (loc : Nat) (bs : List Byte) : State :=
  let b := dev s 0x100900
  if !bit b 0 ∨ loc < hbmBase ∨ hostBase ≤ loc ∨ sysSize s ≤ bits b 13 1 ∨ bits b 13 1 = ownPkg s then s
  else
    match mirrorOffset s loc with
    | none => s
    | some o => inject s { packetTo s (bits b 13 1) 0 (if 64 < bs.length then 2 else 1) with
        mirror := true, acc := some { off := o, len := bs.length, kind := 1, data := natOfBytes bs, expected := 0 } } false

/-- A line is taken back from the atomic engine and the host port that hold it. -/
def takeBack (s : State) (line : Nat) : State := giveUp (recallLine s line) line

/-- A home's write of bytes, clean: the line is taken back first (R56, R414), and a word or line written whole loses its
poison. A write of a peer's memory leaves on the links (R15), and one of a mirrored window is mirrored (R410). -/
def homeWrite (s0 : State) (loc : Nat) (bs : List Byte) : State :=
  let s := if peerBase ≤ loc then peerSend s0 loc bs.length 1 (natOfBytes bs) 0 else mirrorSend s0 loc bs
  disown (unpoison (wrBytes (takeBack (settle s loc bs.length) (loc / 64)) loc bs) loc bs.length) loc bs.length

/-- Bytes of a peer's memory: whatever its serving package answers; this package's own record of them is all that a free value
starts from (R15; log 15). -/
def peerBytes (s : State) (loc n : Nat) : List Byte :=
  (range' loc n).map (fun l => Config.peerByte s.draws l (rdByte s l))

/-- A home's read of bytes after their line is taken back. -/
def homeRead (s : State) (loc n : Nat) : List Byte × State :=
  if peerBase ≤ loc then (peerBytes s loc n, peerSend s loc n 0 0 0)
  else
    let s' := takeBack (settle s loc n) (loc / 64)
    (rdBytes s' loc n, s')

/-- WALK_COMPLETE: a walk of a die, one of those in progress, reads its next entry as a single-copy atomic read; a pointer is
held and leads to the next level, and a leaf or an entry that faults ends the walk (R31, R33). -/
def walkStep (s : State) (die : Nat) : State :=
  let ws := (walkerAt s die).walks
  let (k, s0) := if ws.length ≤ 1 then (0, s) else draw s
  let i := if ws.length ≤ 1 then 0 else Config.choose k % ws.length
  match ws[i]? with
  | none => s
  | some w =>
    let va := 2 ^ 16 * w.page
    let (level, table) := w.pos.getD (walkFrom s0 die va)
    let s1 := match w.pos with
      | some _ => s0
      | none =>
        match pwFind ((walkerAt s0 die).cache ++ (walkerAt s0 die).roots) va with
        | some p => updWalker s0 die (fun k => keepPtr k p)
        | none => s0
    let r := homeRead s1 (locHbm (table + 8 * vaIndex va level)) 8
    match entryOf va level (natOfBytes r.1) with
    | .page => walkEnd r.2 die i w none
    | .leaf e => walkEnd r.2 die i w (some e)
    | .table t =>
      updWalker r.2 die (fun k => keepPtr { k with walks := k.walks.set i { w with pos := some (level + 1, t) } } (passed va level t))

/-- The set of a line in the L1 and in the instruction cache (R58, R65): the spec gives the sets and the ways and not which lines a
set takes (DESIGN CHOICE, log 6). -/
def setOf (line : Nat) : Nat := line % 256

/-- Adds a line to a cache of 4 ways a set; which line of a full set it replaces is a free value (DESIGN CHOICE, log 6). -/
def cacheFill (l : List CLine) (x : CLine) (victim : Nat) : List CLine :=
  let same := l.filter (fun y => setOf y.line = setOf x.line ∧ y.line ≠ x.line)
  let rest := l.filter (fun y => y.line ≠ x.line)
  if same.length < 4 then x :: rest
  else
    match same[victim % 4]? with
    | some z => x :: rest.filter (· ≠ z)
    | none => x :: rest

/-- A core's plain read of n bytes of one line at its target or in its L1 (R58, R62). -/
def l1Read (s : State) (core : Nat) (x : Xl) (n : Nat) : List Byte × State :=
  if x.c && decide (x.t < 3) then
    match (coreAt s core).l1d.find? (fun l => l.line = x.loc / 64) with
    | some l => (((bytesOfNat 64 l.data.toNat).drop (x.loc % 64)).take n, s)
    | none =>
      let (bs, s1) := homeRead s (x.loc / 64 * 64) 64
      let (k, s2) := draw s1
      let y : CLine := { line := x.loc / 64, data := BitVec.ofNat 512 (natOfBytes bs), bad := false }
      let s3 := updCore s2 core (fun c => { c with l1d := cacheFill c.l1d y (Config.choose k) })
      ((bs.drop (x.loc % 64)).take n, s3)
  else homeRead s x.loc n

/-- Drops every line of a core's L1 (R59). -/
def l1Drop (s : State) (core : Nat) : State := updCore s core (fun c => { c with l1d := [] })

/-- Drops one line of a core's L1 (R60). -/
def l1DropLine (s : State) (core line : Nat) : State :=
  updCore s core (fun c => { c with l1d := c.l1d.filter (fun l => l.line ≠ line) })

/-- Updates a byte of a core's L1 if its line is there (R58). -/
def l1Write (s : State) (core loc : Nat) (b : Byte) : State :=
  updCore s core (fun c => { c with l1d := c.l1d.map (fun l =>
    if l.line = loc / 64 then
      { l with data := BitVec.ofNat 512 (natOfBytes ((bytesOfNat 64 l.data.toNat).set (loc % 64) b)) } else l) })

/-! ## Tags (R46-R49) -/

/-- NBUF of an operand node of a cell: NBUFA or NBUFB of field 0x16 (Tables 2-3, 12-8). -/
def nbuf (s : State) (key node : Nat) : Nat :=
  let v := match look s.fab.elems (4 * key) with
    | none => 0
    | some e => getD e.fields 0 0x16
  if node = 0 then bits v 1 0 else bits v 3 2

/-- The buffer size of an operand node (Table 2-3). -/
def bufSize (s : State) (key node : Nat) : Nat := 0x8000 / 2 ^ nbuf s key node

/-- A tag: of a bank word, or of a buffer of an operand node. -/
inductive TagKey where
  | word (w : Nat) | buffer (cell node buf : Nat)
deriving DecidableEq, Repr

/-- The tag of an S-address (R46). -/
def tagKey (s : State) (a : Nat) : TagKey :=
  match sPlace s a with
  | .node n => .buffer (siteKey a) n (a % 0x8000 / bufSize s (siteKey a) n)
  | _ => .word (a / 8)

/-- Whether a tag is full. -/
def tagFull (s : State) : TagKey → Bool
  | .word w => getD s.tags false w
  | .buffer c n b => getD (cellAt s c).tags false (8 * n + b)

/-- Sets a tag, and for a buffer made empty its fill count anew. Releases no waiter. -/
def setTagRaw (s : State) (k : TagKey) (full : Bool) : State :=
  match k with
  | .word w => { s with tags := setD s.tags false w full }
  | .buffer c n b => updCell s c (fun y =>
      let x := if !full ∧ n = 1 ∧ y.busy.isNone then y.undecoded else y
      { x with tags := setD x.tags false (8 * n + b) full, fill := if full then x.fill else del x.fill (8 * n + b)
               stage := if full then x.stage else del x.stage (8 * n + b)
               taint := if full then x.taint else del x.taint (8 * n + b) })

/-- The node that holds a tag: the bank of a site, or operand node n of a cell, as keys of State.nodes. -/
def nodeKey : TagKey → Nat
  | .word w => 3 * siteKey (8 * w)
  | .buffer c n _ => 3 * c + 1 + n

/-- A number that names a tag among its node's waiters. -/
def tagNum : TagKey → Nat
  | .word w => w
  | .buffer c n b => 2 ^ 32 + 16 * c + 8 * n + b

/-- The waiters of a tag, in registration order, each released while the tag is full: the home's 8 bytes, after every earlier
atomic to them (R53), go to the context, and the consuming form empties the tag in the same step, after which later waiters stay
registered (R48). -/
def releaseList (k : TagKey) : State → List (Nat × Nat) → State
  | s, [] => s
  | s, (num, cid) :: r =>
    match (ctxOf s cid).wait with
    | some (.tag loc consume) =>
      if num = tagNum k ∧ tagFull s k then
        let s := settleWord s loc
        let v := BitVec.ofNat 64 (rdNat s loc 8)
        let bad := poisoned s loc 8
        let s1 := if consume && !bad then setTagRaw s k false else s
        let s2 := updCtx s1 cid (fun c => { c with wait := none, got := if bad then none else some v })
        releaseList k (updNode s2 (nodeKey k) (fun n => { n with waiters := n.waiters.filter (· ≠ (num, cid)) })) r
      else releaseList k s r
    | _ => releaseList k s r

/-- Sets a tag and, when it is full, releases its waiters (R47, R48). -/
def setTag (s : State) (k : TagKey) (full : Bool) : State :=
  let s1 := setTagRaw s k full
  if full then releaseList k s1 (nodeAt s1 (nodeKey k)).waiters else s1

/-- A change of a node's division: its tags are empty, its counts reloaded, and its waiters issue again (R44). -/
def clearNode (s : State) (key node : Nat) : State :=
  let drop {α : Type} (m : FMap α) : FMap α := m.filter (fun p => p.1 / 8 ≠ node)
  let s1 := updCell s key (fun c =>
    let c1 := { c with tags := drop c.tags, fill := drop c.fill, stage := drop c.stage, taint := drop c.taint, reuse := drop c.reuse }
    if node = 0 then { c1 with nextA := 0 } else { c1.undecoded with nextB := 0 })
  let nk := 3 * key + 1 + node
  let s2 := (nodeAt s1 nk).waiters.foldl (fun s w => updCtx s w.2 (fun c => { c with wait := none })) s1
  updNode s2 nk (fun n => { n with waiters := [] })

end Sys2Proof.Machine
end

