-- ==== Sys2Proof/Machine/Bmv.lean ====
section
/-! DEFINITION. Bitmask-plus-values blocks, and what an engine's write does at a bank or an operand node
(spec/02 R44-R49, spec/04 R103-R105, R118). -/

namespace Sys2Proof.Machine
open Sys2Proof

/-! ## Blocks (R103-R105) -/

/-- The number of one bits. -/
def popc (w : Nat) (x : Nat) : Nat := (range' 0 w).foldl (fun n i => if bit x i then n + 1 else n) 0

/-- The format codes of a block. -/
def bmvFmt (f : Nat) : Bool := f ≤ 4 || f == 7 || f == 0xC

/-- Header fields (Table 4-3). -/
structure BmvHdr where
  n : Nat
  nnz : Nat
  cap : Nat
  fmt : Nat
  zneg : Bool
  ovr : Bool
  /-- A reserved bit is set. -/
  bad : Bool
deriving DecidableEq, Repr

/-- The header in 16 bytes. -/
def bmvHdr (bs : List Byte) : BmvHdr :=
  let h := natOfBytes bs
  { n := bits h 15 0, nnz := bits h 31 16, cap := bits h 47 32, fmt := bits h 51 48, zneg := bit h 52, ovr := bit h 53,
    bad := bits h 127 54 != 0 }

/-- Mask bytes of a block, and bytes of its value area. -/
def bmvMask (n : Nat) : Nat := (n + 511) / 512 * 64
def bmvVals (cap size : Nat) : Nat := (cap * size + 15) / 16 * 16

/-- Whether an element is removed as zero (R104). -/
def bmvZero (fmt : Nat) (zneg : Bool) (x : Nat) : Bool :=
  x == 0 || (zneg && (fpOf fmt).isSome && x == 2 ^ (8 * elemSize fmt - 1))

/-- Set bits of mask bytes below a bit. -/
def maskCount (bs : List Byte) (below : Nat) : Nat :=
  (bs.zip (range' 0 bs.length)).foldl (fun n p =>
    if 8 * p.2 + 8 ≤ below then n + popc 8 p.1.toNat
    else if below ≤ 8 * p.2 then n else n + popc 8 (p.1.toNat % 2 ^ (below - 8 * p.2))) 0

/-- The elements of a run that a block keeps: mask bits and values, up to the capacity; the index of the first one beyond
it (R105). -/
def bmvTake (fmt cap : Nat) (zneg : Bool) : List Nat → Nat → List Nat → List Nat → List Nat × List Nat × Option Nat
  | [], _, is, vs => (is, vs, none)
  | x :: r, i, is, vs =>
    if bmvZero fmt zneg x then bmvTake fmt cap zneg r (i + 1) is vs
    else if vs.length = cap then (is, vs, some i)
    else bmvTake fmt cap zneg r (i + 1) (is ++ [i]) (vs ++ [x])

/-- Bytes of a block of a run of bn elements (R103). -/
def bmvSize (bn cap fmt : Nat) : Nat := 16 + bmvMask bn + bmvVals cap (elemSize fmt)

/-- The block of a run in a given number of bytes, and the index of the element that overran its capacity. -/
def bmvBuild (xs : List Nat) (cap fmt : Nat) (zneg : Bool) (total : Nat) : List Byte × Option Nat :=
  let (is, vs, past) := bmvTake fmt cap zneg xs 0 [] []
  let mask := is.foldl (fun n i => n + 2 ^ i) 0
  let hdr := xs.length + 2 ^ 16 * vs.length + 2 ^ 32 * cap + 2 ^ 48 * fmt + (if zneg then 2 ^ 52 else 0) +
    (if past.isSome then 2 ^ 53 else 0)
  let bs := bytesOfNat 16 hdr ++ bytesOfNat (bmvMask xs.length) mask ++ vs.flatMap (fun v => bytesOfNat (elemSize fmt) v)
  (bs ++ List.replicate (total - bs.length) 0, past)

/-- Whether a reader rejects a block's header, its mask apart (R104). -/
def bmvBad (h : BmvHdr) : Bool :=
  h.n == 0 || !bmvFmt h.fmt || decide (h.cap < h.nnz) || decide (h.n < h.nnz) || h.bad

/-- The dense elements of a block, in bytes (R104). -/
def bmvDense (h : BmvHdr) (mask vals : List Byte) : List Byte :=
  let size := elemSize h.fmt
  (range' 0 h.n).flatMap (fun i =>
    if bit (mask.getD (i / 8) 0).toNat (i % 8) then (vals.drop (size * maskCount mask i)).take size
    else List.replicate size 0)

/-! ## Graphs -/

/-- The graph that a site belongs to, with its base (R347). -/
def graphAt (s : State) (site : Nat) : Option (Nat × Graph) :=
  let x := site % 2304 % 48
  let y := site % 2304 / 48
  s.fab.graphs.find? (fun g => decide (g.2.die = site / 2304) &&
    decide (g.2.col ≤ x) && decide (x < g.2.col + g.2.w) && decide (g.2.row ≤ y) && decide (y < g.2.row + g.2.h))

/-- The record of a fault of an element context or of a cell (Tables 13-3, 13-4). -/
def elemRec (s : State) (k cause : Nat) (addr : W64) (pos : Option Nat) (lnk : Link) (detail : List Byte) : Rec :=
  let site := k / 4
  let (base, rel) := match graphAt s site with
    | some (b, g) => (b, 64 * (site % 2304 / 48 - g.row) + (site % 2304 % 48 - g.col))
    | none => (0, 0)
  { cause := cause, kind := 2, flags := if pos.isSome then 2 else 0, addr := addr, pc := 0, ts := 0, tseq := 0, dom := 0, prio := 0,
    hidx := 0, who := base, port := none, lane := none, pos := pos.map (fun p => (p % 2 ^ 32, 0, 0)),
    detail := bytesOfNat 2 rel ++ bytesOfNat 1 (k % 4) ++ bytesOfNat 1 (siteKind s (site / 2304) (site % 2304)) ++ detail,
    link := lnk }

/-- An ECC_UE raised counts as an uncorrectable error of the die (R403). -/
def countCause (s : State) (die cause : Nat) : State := if cause = cECC then countUe s die else s

/-- An asynchronous fault that waits for a record (R397). -/
def raiseRec (s : State) (die : Nat) (r : Rec) : State :=
  updDisp (countCause s die r.cause) die (fun d => { d with recWait := d.recWait ++ [(r, true)] })

/-! ## Operand nodes (R44-R49, R118) -/

/-- A configuration field of a cell, or its reset value. -/
def cellFld (s : State) (key f dflt : Nat) : Nat :=
  match look s.fab.elems (4 * key) with
  | none => dflt
  | some e => getD e.fields dflt f

/-- Whether an operand node takes BMV blocks: ABMV, BBMV (Table 12-8). -/
def nodeBmv (s : State) (key node : Nat) : Bool := bit (cellFld s key 0x15 0x22) (10 + node)

/-- The elements of a line of a node: KC of ON-A, N of ON-B (R381). -/
def nodeLine (s : State) (key node : Nat) : Nat :=
  if node = 0 then cellFld s key 0x13 0 + 1 else bits (cellFld s key 0x12 0xFFF) 11 6 + 1

/-- The configured fill count of a buffer (R49, Table 12-9): FILLA or FILLB of the cell's block, else the buffer size. -/
def fillCount (s : State) (key node : Nat) : Nat :=
  let blk := match look s.fab.elems (4 * key) with
    | none => []
    | some e => e.block
  let f := natOfBytes ((blk.drop (52 + 4 * node)).take 4)
  if f = 0 then bufSize s key node else f

/-- Bytes that count towards a buffer's fill count. -/
def countFill (s : State) (c m b n : Nat) : State :=
  let t := getD (cellAt s c).fill 0 (8 * m + b) + n
  let s1 := updCell s c (fun x => { x with fill := put x.fill (8 * m + b) t })
  if fillCount s1 c m ≤ t then setTag s1 (.buffer c m b) true else s1

/-- The S-address of a buffer. -/
def bufBase (s : State) (c m b : Nat) : Nat := 2 ^ 30 * (c / 2304) + 2 ^ 18 * (c % 2304) + 0x8000 * m + b * bufSize s c m

/-- Blocks that have arrived whole are expanded at the buffer's next line; a block that fails a check is dropped, with
the fault CFG_BAD of the node, and the buffer is not set full (R118). What becomes of the bytes that follow such a block, the spec does
not say: they are dropped until the buffer is made empty (DESIGN CHOICE, log 49). Poison that came with a block's bytes marks what it
expands to (R402). fuel counts the blocks. -/
def expandBlocks (c m b : Nat) : Nat → State → State
  | 0, s => s
  | f + 1, s =>
    let key := 8 * m + b
    let st := getD (cellAt s c).stage [] key
    let setStage (s : State) (l : List Byte) : State := updCell s c (fun x => { x with stage := setD x.stage [] key l })
    let bad : State := raiseRec (updCell (setStage s []) c (fun x => { x with taint := put x.taint key .dropped })) (c / 2304)
      (elemRec s (4 * c) cCFGBAD (BitVec.ofNat 64 (bufBase s c m b)) none .none [])
    if st.length < 16 then s
    else
      let h := bmvHdr (st.take 16)
      let size := elemSize h.fmt
      let total := bmvSize h.n h.cap h.fmt
      if bmvBad h ∨ h.n ≠ nodeLine s c m then bad
      else if st.length < total then s
      else
        let mask := (st.drop 16).take (bmvMask h.n)
        if maskCount mask (8 * mask.length) ≠ h.nnz then bad
        else
          let dense := bmvDense h mask (st.drop (16 + mask.length))
          let pitch := (h.n * size + 31) / 32 * 32
          let line := getD (cellAt s c).fill 0 key / (h.n * size)
          let at_ := bufBase s c m b + pitch * line
          let s1 := homeWrite (setStage s (st.drop total)) at_ dense
          let s2 := if look (cellAt s c).taint key = some .poison then markPoison s1 at_ dense.length else s1
          expandBlocks c m b f (countFill s2 c m b dense.length)

/-- Whether an engine's write of S-space must wait: a byte of it lies in a buffer whose tag is full (R49). -/
def writeHeld (s : State) (loc n : Nat) : Bool :=
  decide (loc < 2 ^ 32) && (range' loc n).any (fun a =>
    match tagKey s a with
    | .buffer c m b => tagFull s (.buffer c m b)
    | _ => false)

/-- A write of a copy, a MEMOP, an LWR, a drain or a payload: the bytes, and with them the word tags set full, or the
fill count of a buffer, whose tag it sets full when it is reached (R47, R49). A buffer configured for BMV input takes
blocks (R118). Poison into an operand node poisons its buffer (R402). -/
def engineWrite (s : State) (loc : Nat) (bs : List Byte) (bad : Bool) : State :=
  let put1 : State :=
    let s1 := homeWrite s loc bs
    if bad then markPoison { s1 with poison := s.poison, linePoison := s.linePoison } loc bs.length else s1
  if 2 ^ 32 ≤ loc then put1
  else
    match tagKey s loc with
    | .word _ =>
      let w0 := loc / 8
      (range' w0 ((loc + bs.length - 1) / 8 + 1 - w0)).foldl (fun s w => setTag s (.word w) true) put1
    | .buffer c m b =>
      if nodeBmv s c m then
        let key := 8 * m + b
        if look (cellAt s c).taint key = some .dropped then s
        else
          expandBlocks c m b (bs.length + 1) (updCell s c (fun x => { x with
            stage := put x.stage key (getD x.stage [] key ++ bs), taint := if bad then put x.taint key .poison else x.taint }))
      else
        let s1 := if bad then updCell put1 c (fun x => { x with taint := put x.taint (8 * m + b) .poison }) else put1
        countFill s1 c m b bs.length

/-- The pieces (address, length) of n bytes, cut at 64-byte lines; fuel counts them. -/
def pieces : Nat → W64 → Nat → List (W64 × Nat)
  | 0, _, _ => []
  | f + 1, ea, n =>
    let k := min n (64 - ea.toNat % 64)
    if n = 0 then [] else (ea, k) :: pieces f (ea + BitVec.ofNat 64 k) (n - k)

/-- The pieces of n bytes. -/
def linePieces (ea : W64) (n : Nat) : List (W64 × Nat) := pieces (n / 64 + 2) ea n

end Sys2Proof.Machine
end

