-- ==== Sys2Proof/Machine/Home.lean ====
section
/-! DEFINITION. Homes: atomic operations at RMW nodes and atomic engines, the request queues of bank ports and engines, and the
accesses of engines, elements and other units through them (spec/01 R32, R35, spec/02 R41, R50-R57, spec/09 R280). -/

namespace Sys2Proof.Machine
open Sys2Proof

/-! ## Atomic operations (Table 2-5, R50-R52) -/

/-- The new value of a word of a size in bytes. -/
def atomNew (op : AtomOp) (size old v expected : Nat) : Nat :=
  let w := 8 * size
  let so := sgn w old
  let sv := sgn w v
  match op with
  | .add => (old + v) % 2 ^ w
  | .min => if sv < so then v else old
  | .max => if so < sv then v else old
  | .minu => if v < old then v else old
  | .maxu => if old < v then v else old
  | .and => Nat.land old v
  | .or => Nat.lor old v
  | .xor => Nat.xor old v
  | .swap => v
  | .faddF32 => nodeAdd fp32 old v
  | .faddBf16 => nodeAdd bf16 old v
  | .cas => if old = expected then v else old
  | .amaxrst => v

/-- The operand of an atomic: its low bits. -/
def atomArg (size : Nat) (v : W64) : Nat := v.toNat % 2 ^ (8 * size)

/-- The row of an operation in Table 2-5. -/
def atomRow : AtomOp → Nat
  | .add => 0 | .min => 1 | .max => 2 | .minu => 3 | .maxu => 4 | .and => 5 | .or => 6 | .xor => 7 | .swap => 8
  | .cas => 9 | .faddF32 => 10 | .faddBf16 => 11 | .amaxrst => 12

/-- One read-modify-write step at an RMW node: the old value (R50). One in a peer's memory leaves on the links, and its old value
is what the peer answers (R57). -/
def rmwAt (s : State) (op : AtomOp) (loc size : Nat) (v expected : W64) : Nat × State :=
  let new (old : Nat) : List Byte := bytesOfNat size (atomNew op size old (atomArg size v) (atomArg size expected))
  if peerBase ≤ loc then
    let old := natOfBytes (peerBytes s loc size)
    (old, wrBytes (peerSend s loc size (2 + atomRow op) v.toNat expected.toNat) loc (new old))
  else
    let s1 := recallLine (settleWord s loc) (loc / 64)
    let old := rdNat s1 loc size
    (old, disown (unpoison (wrBytes (mirrorSend s1 loc (new old)) loc (new old)) loc size) loc size)

/-- A line brought into a cluster's atomic engine, recalled from any other; of 128 lines the least recently used one
without a waiting request leaves, written back; where each has one, the least recently used of all, which R56 leaves open (DESIGN
CHOICE, log 6) (R54-R56). -/
def aeFill (s : State) (cl line : Nat) : State :=
  match (clusterAt s cl).lines.find? (fun l => l.line = line) with
  | some l => updCluster s cl (fun c => { c with lines := l :: c.lines.filter (fun x => x.line ≠ line) })
  | none =>
    let s1 := takeBack s line
    let new : CLine := { line := line, data := BitVec.ofNat 512 (rdNat s1 (64 * line) 64), bad := false }
    let ls := (clusterAt s1 cl).lines
    let asked (l : CLine) : Bool := (clusterAt s1 cl).ports.any (fun p => p.2.any (fun r => r.loc / 64 = l.line))
    let out := if ls.length < 128 then none else (ls.reverse.find? (fun l => !asked l)).or ls.getLast?
    let s2 := match out with
      | none => s1
      | some l => wrBytes s1 (64 * l.line) (bytesOfNat 64 l.data.toNat)
    updCluster s2 cl (fun c => { c with lines := new :: c.lines.filter (fun l => some l ≠ out), fills := c.fills.filter (· ≠ line) })

/-- One step at an atomic engine (R54): the old value. The memory copy is not updated (R56); a mirrored window's write is mirrored
(R410). -/
def aeAt (s : State) (cl : Nat) (op : AtomOp) (loc size : Nat) (v expected : W64) : Nat × State :=
  let s1 := aeFill s cl (loc / 64)
  match (clusterAt s1 cl).lines with
  | [] => (0, s1)
  | l :: _ =>
    let bs := bytesOfNat 64 l.data.toNat
    let old := natOfBytes ((bs.drop (loc % 64)).take size)
    let new := bytesOfNat size (atomNew op size old (atomArg size v) (atomArg size expected))
    let bs' := bs.take (loc % 64) ++ new ++ bs.drop (loc % 64 + size)
    (old, updCluster (mirrorSend s1 loc new) cl (fun c =>
      { c with lines := { l with data := BitVec.ofNat 512 (natOfBytes bs') } :: c.lines.drop 1 }))

/-! ## A context's own bytes (R62, R158) -/

/-- A byte of the context's own store-buffer lines or journal. -/
def ownByte (c : Ctx) (loc : Nat) : Option Byte :=
  match (c.sb.find? (fun l => l.line = loc / 64)).bind (fun l => look l.bytes (loc % 64)) with
  | some b => some b
  | none => (c.journal.reverse.find? (fun l => l.line = loc / 64 ∧ (look l.bytes (loc % 64)).isSome)).bind
      (fun l => look l.bytes (loc % 64))

/-- The bytes of n that a context holds leave its buffer and its journal for their home, in the step of an atomic of the context
on them, which follows them in coherence order (R158); its other bytes stay. -/
def publishWord (s : State) (cid loc n : Nat) : State :=
  let c := ctxOf s cid
  let mine (p : Nat × Byte) : Bool := decide (loc % 64 ≤ p.1) && decide (p.1 < loc % 64 + n)
  if (range' loc n).any (fun l => (ownByte c l).isSome) then
    let line (l : SbLine) : SbLine := if l.line = loc / 64 then { l with bytes := l.bytes.filter (fun p => !mine p) } else l
    let used (l : SbLine) : Bool := !l.bytes.isEmpty || !l.tags.isEmpty
    let s1 := (range' loc n).foldl (fun s l => match ownByte c l with
      | some b => homeWrite s l [b]
      | none => s) s
    updCtx s1 cid (fun x => { x with journal := (x.journal.map line).filter used, sb := (x.sb.map line).filter used })
  else s

/-- What names a task in the records of what it issues. -/
def identOf (t : Task) : Ident := { tid := t.tid, prio := t.prio, hidx := t.hidx }

/-- A context as the author of what it writes: in the mode in which it then is. -/
def Ctx.author (c : Ctx) : Author := { super := c.mode, ident := c.task.map identOf }

/-! ## Requests at the ports of banks and engines (R41, R53-R55, R280) -/

/-- Removes the head of a bank port's queue. -/
def popBank (s : State) (k : Nat) (portF : Bool) : State :=
  updNode s k (fun n => if portF then { n with portF := n.portF.drop 1 } else { n with portM := n.portM.drop 1 })

/-- The head of a bank port's queue. -/
def bankHead (s : State) (k : Nat) (portF : Bool) : Option Req :=
  if portF then (nodeAt s k).portF.head? else (nodeAt s k).portM.head?

/-- Whether the comparator of a bank holds a word. -/
def wordBusy (s : State) (k loc : Nat) : Bool := (nodeAt s k).inflight.any (fun e => e.1.loc / 8 == loc / 8)

/-- A posted atomic that meets poison traps its context at a next instruction (R280, R402). -/
def postedTrap (s : State) (cid line : Nat) : State :=
  match (ctxOf s cid).posted.find? (fun p => p.line = line) with
  | none => s
  | some p => updCtx s cid (fun x => { x with
      trapNext := x.trapNext ++ [{ f := { faultAt cECC p.ea with post := true }, pc := p.pc, ir := p.ir }] })

/-- A queued request performed whole; one that meets poison faults its context or its element (R402). An atomic of a context follows
the context's own bytes (R158), and its line leaves the
core's L1, into which it may have been brought since its issue (R60). -/
def serveReq (s : State) (cl : Option Nat) (r : Req) : State :=
  let line := r.loc / 64
  match r.op with
  | none => engineWrite s r.loc (bytesOfNat r.size r.data.toNat) false
  | some op =>
    if poisoned s r.loc r.size then
      match r.cid, r.elem with
      | some c, _ => postedDone (postedTrap s c line) r.cid line
      | none, some k => raiseRec (updElem s k (fun e => { e with faulted := some none })) (k / 4 / 2304)
          (elemRec s k cECC (BitVec.ofNat 64 r.loc) r.pos (.elem k) [])
      | none, none => s
    else
      let s1 := match r.cid with
        | none => s
        | some c => l1DropLine (publishWord s c r.loc r.size) (coreOf c) line
      let s2 := match cl with
        | none => (rmwAt s1 op r.loc r.size r.data r.expected).2
        | some k => (aeAt s1 k op r.loc r.size r.data r.expected).2
      postedDone (match r.cid with
        | none => s2
        | some c => signBy s2 r.loc (ctxOf s c).author) r.cid line

/-- The requests that stand in a port's queue are performed, in order. -/
def drainPort (s : State) (k : Nat) (portF : Bool) : State :=
  match look s.nodes k with
  | none => s
  | some n =>
    let q := if portF then n.portF else n.portM
    q.foldl (fun s r => serveReq s none r) (updNode s k (fun n => if portF then { n with portF := [] } else { n with portM := [] }))

/-- Every queued request of a bank's port M is performed. -/
def drainBank (s : State) (k : Nat) : State := drainPort s k false

/-- An access of a location comes to its port, of a fabric element port F and of any other requester port M: it takes the next
place in the port's queue, and has its turn when what stands before it there has been performed (R41). -/
def portTurn (s : State) (portF : Bool) (loc : Nat) : State :=
  if 2 ^ 32 ≤ loc ∨ s.nodes.isEmpty then s else drainPort s (3 * siteKey loc) portF

/-- RMW_ATOMIC: the head atomic of a port reads its word and enters the comparator (R53). One that meets poison is not
performed (R402). The head of port M goes first where that of port F came in the same cycle for the same word. -/
def rmwRead (s : State) (k : Nat) (portF : Bool) : State :=
  match bankHead s k portF with
  | none => s
  | some r =>
    match r.op with
    | none => s
    | some op =>
      if wordBusy s k r.loc ∨ (portF && (bankHead s k false).any (fun m => m.arrival == r.arrival && m.loc / 8 == r.loc / 8)) ∨ 8 ≤ (nodeAt s k).inflight.length then s
      else if poisoned s r.loc r.size then serveReq (popBank s k portF) none r
      else
        let s := match r.cid with
          | none => s
          | some c => publishWord s c r.loc r.size
        let new := atomNew op r.size (rdNat s r.loc r.size) (atomArg r.size r.data) (atomArg r.size r.expected)
        updNode (popBank s k portF) k (fun n => { n with inflight := n.inflight ++ [(r, BitVec.ofNat 64 new)] })

/-- RMW_ATOMIC_COMPLETE: the oldest atomic in the comparator writes its new value. -/
def rmwWrite (s : State) (k : Nat) : State :=
  match (nodeAt s k).inflight with
  | [] => s
  | e :: _ => settleWord s e.1.loc

/-- The heads of an engine's port queues, with their ports. -/
def aeHeads (s : State) (cl : Nat) : List (Nat × Req) :=
  (clusterAt s cl).ports.filterMap (fun p => p.2.head?.map (fun r => (p.1, r)))

/-- The winner among some heads: the oldest, ties taken upward from last_winner + 1 (R55). -/
def aeBest (last : Nat) (heads : List (Nat × Req)) : Option (Nat × Req) :=
  let dist (p : Nat) : Nat := (p + 32 - (last + 1)) % 16
  heads.foldl (fun b x =>
    match b with
    | none => some x
    | some y =>
      if x.2.arrival < y.2.arrival ∨ (x.2.arrival = y.2.arrival ∧ dist x.1 < dist y.1) then some x else some y) none

/-- The winner of an atomic engine's pick, among the heads whose lines are resident: its port and its request (R55). -/
def aePick (s : State) (cl : Nat) : Option (Nat × Req) :=
  let c := clusterAt s cl
  aeBest c.lastWinner ((aeHeads s cl).filter (fun p => c.lines.any (fun l => l.line == p.2.loc / 64)))

/-- The request of a port of an engine leaves its queue and is performed. -/
def aeServe (s : State) (cl p : Nat) (r : Req) : State :=
  serveReq (updCluster s cl (fun c => { c with ports := setD c.ports [] p ((getD c.ports [] p).drop 1), lastWinner := p })) (some cl) r

/-- ATOMIC_ENGINE_PICK: heads whose lines are absent start fills, 16 at most; the winner is performed. -/
def aeStep (s : State) (cl : Nat) : State :=
  let c := clusterAt s cl
  let miss := ((aeHeads s cl).map (fun p => p.2.loc / 64)).filter (fun l => !c.lines.any (fun x => x.line == l) && !c.fills.contains l)
  let s1 := updCluster s cl (fun c => { c with fills := (c.fills ++ miss.eraseDups).take 16 })
  match aePick s cl with
  | none => s1
  | some (p, r) => aeServe s1 cl p r

/-- Requests of an engine are performed in the order of its picks, each after the fill of its line; fuel counts them. -/
def aeRun (cl : Nat) : Nat → State → State
  | 0, s => s
  | f + 1, s =>
    match aeBest (clusterAt s cl).lastWinner (aeHeads s cl) with
    | none => s
    | some (p, r) => aeRun cl f (aeServe s cl p r)

/-- Every queued request of a cluster's atomic engine is performed. -/
def drainAe (s : State) (cl : Nat) : State :=
  aeRun cl ((clusterAt s cl).ports.foldl (fun n p => n + p.2.length) 0) s

/-- A context's posted atomics to a line are performed before a later access of the line (R280). -/
def drainPosted (s : State) (cid line : Nat) : State :=
  if (ctxOf s cid).posted.any (fun p => p.line = line) then
    if 64 * line < 2 ^ 32 then settle (drainBank s (3 * siteKey (64 * line))) (64 * line) 64 else drainAe s (clusterOf (coreOf cid))
  else s

/-- All of a context's posted atomics are performed (R280, R321, R331). -/
def drainAll (s : State) (cid : Nat) : State :=
  (ctxOf s cid).posted.foldl (fun s p => drainPosted s cid p.line) s

/-! ## Accesses of engines and address generators (R27, R32, R35, R402) -/

/-- The target of bytes within one line. A host link that is down faults the access, and so does a request that
fails: an AGT's number as a requester is 4096 + that of its TLB (R414; log 36). -/
def agtTarget (s : State) (u : Agt) (sp super : Bool) (acc : Acc) (p : W64 × Nat) : Except FaultInfo Xl :=
  if sp then (checkS s p.1 1 super).map (fun a => { va := p.1, t := 0, pa := a, loc := a, c := false, o := false, p := false, hp := false })
  else
    match agtXlOf s u p.1 acc p.2 1 super with
    | .error f => .error f
    | .ok x =>
      let failed := u.tlb.any (fun k => s.host.bad.contains (4096 + k))
      if x.t = 1 ∧ (!getD s.host.up false (if x.hp then 1 else 0) ∨ failed) then .error (faultAt cECC p.1) else .ok x

/-- A requester whose request failed has had its fault. -/
def reqDone (s : State) (reqs : List Nat) : State :=
  if s.host.bad.any (reqs.contains ·) then { s with host := { s.host with bad := s.host.bad.filter (fun r => !reqs.contains r) } } else s

/-- The targets of n bytes, by pieces of one line each. -/
def agtTargets (s : State) (u : Agt) (sp super : Bool) (acc : Acc) (va : W64) (n : Nat) :
    Except FaultInfo (List (Xl × Nat)) :=
  (linePieces va n).mapM (fun p => (agtTarget s u sp super acc p).map (fun x => (x, p.2)))

/-- The first miss of an access of n bytes by an AGT: the state in which it waits for the walk (R32). -/
def agtWaits (s : State) (u : Agt) (sp : Bool) (va : W64) (n : Nat) : Option State :=
  if sp then none else (linePieces va n).findSome? (fun p => agtMiss s u p.1)

/-- Whether an AGT's TLB does not hold the translation of a page that it may ask for, and whether its demand for it stands at its walker
(R31, R32). -/
def agtLacks (s : State) (u : Agt) (va : W64) : Bool := (agtMiss s u va).isSome
def agtAsked (s : State) (u : Agt) (va : W64) : Bool :=
  let w := walkerAt s u.die
  (w.walks ++ w.queue).any (fun x => x.page == pageOf va.toNat && x.agts.any (fun a => some a.tlb == u.tlb && a.copy == u.copy && a.demand))

/-- An AGT asks for the walk of a page that it lacks. -/
def agtAsk (s : State) (u : Agt) (va : W64) : State := (agtMiss s u va).getD s

/-- Whether a unit's accesses of a bank go to its port F: those of fabric elements (R41). -/
def Agt.portF (u : Agt) : Bool := u.tlb.any (fun k => decide (128 ≤ k) && decide (k < unitBase))

/-- An access of n bytes leaves the leaves of its pages in the AGT's TLB (R29, R32). -/
def agtTouch (s : State) (u : Agt) (sp : Bool) (va : W64) (n : Nat) : State :=
  match sp, u.tlb with
  | false, some k => (linePieces va n).foldl (fun s p => match agtLeaf s u p.1.toNat with
      | none => s
      | some e => agtHold s e k) s
  | _, _ => s

/-- Reads n bytes: poison faults, or in a page with P = 1 goes with the bytes. -/
def agtRead (s : State) (u : Agt) (sp super : Bool) (va : W64) (n : Nat) :
    Except FaultInfo ((List Byte × Bool) × State) :=
  match agtTargets s u sp super .rd va n with
  | .error f => .error f
  | .ok xs =>
    if xs.any (fun x => poisoned s x.1.loc x.2 && !x.1.p) then .error (faultAt cECC va)
    else
      let bad := xs.any (fun x => poisoned s x.1.loc x.2)
      let r := xs.foldl (fun (acc : List Byte × State) x =>
        let s1 := portTurn acc.2 u.portF x.1.loc
        (acc.1 ++ (homeRead s1 x.1.loc x.2).1, fromDie u.die x.1.loc (fun s => (homeRead s x.1.loc x.2).2) s1)) ([], agtTouch s u sp va n)
      .ok ((r.1, bad), r.2)

/-- A unit's write of bytes within one line, by its turn at its port; of a line's first byte it is then the author (R41, R135). -/
def unitWrite (s : State) (portF : Bool) (a : Author) (loc : Nat) (bs : List Byte) (bad : Bool) : State :=
  let s1 := engineWrite (portTurn s portF loc) loc bs bad
  if bs.head? = some 1 then signBy s1 loc a else s1

/-- The author of what a unit writes: the privilege of its graph (R135). -/
def Agt.author (s : State) (u : Agt) : Author :=
  { super := match u.tlb with
      | some k => u.portF && (match graphAt s ((k - 128) / 4) with
        | some (_, g) => g.super
        | none => false)
      | none => false
    ident := none }

/-- Writes bytes to their targets as an engine's write. -/
def agtWrite (u : Agt) (s : State) : List (Xl × Nat) → List Byte → Bool → State
  | [], _, _ => s
  | x :: r, bs, bad =>
    agtWrite u (fromDie u.die x.1.loc (fun s => unitWrite s u.portF (u.author s) x.1.loc (bs.take x.2) bad) s) r (bs.drop x.2) bad

/-- Whether a packet is a request of this package to a peer. -/
def ownReq (s : State) (p : Packet) : Bool := p.acc.isSome && decide (p.src = ownPkg s)

/-- The first and last 64-byte line of a peer's memory that a write or an atomic touches; a read, none. -/
def reqLines (p : Packet) : Nat × Nat :=
  match p.acc with
  | none => (1, 0)
  | some a => if a.kind = 0 then (1, 0) else (2 ^ 33 * p.dst + a.off / 64, 2 ^ 33 * p.dst + (a.off + a.len - 1) / 64)

/-- Whether two ranges of lines have one in common. -/
def linesMeet (x y : Nat × Nat) : Bool :=
  decide (x.1 ≤ x.2) && decide (y.1 ≤ y.2) && decide (x.1 ≤ y.2) && decide (y.1 ≤ x.2)

/-- The lines of peers' memory among some targets, and whether a write of one of some such lines has no response yet (R355, R423). -/
def awayLines (xs : List (Xl × Nat)) : List Nat :=
  (xs.filter (fun x => decide (peerBase ≤ x.1.loc))).map (fun x => (x.1.loc - peerBase) / 64)
def awayDue (s : State) (ls : List Nat) : Bool :=
  ls.any (fun l => s.host.asked.any (fun a => linesMeet a.2 (l, l)) ||
    s.host.pkts.any (fun p => ownReq s p.pkt && linesMeet (reqLines p.pkt) (l, l)))

/-- Whether a target lies in another package, or a write of it must wait for a full buffer (R49, R410). -/
def anyPeer (xs : List (Xl × Nat)) : Bool := xs.any (fun x => decide (peerBase ≤ x.1.loc))
def anyHeld (s : State) (xs : List (Xl × Nat)) : Bool := xs.any (fun x => writeHeld s x.1.loc x.2)

end Sys2Proof.Machine
end

