-- ==== Sys2Proof/Machine/Buffer.lean ====
section
/-! DEFINITION. Store buffers and journals, publication, and the conflict directory of timestamp domains (spec/02 R61, R62,
spec/06, spec/07 R198-R209). -/

namespace Sys2Proof.Machine
open Sys2Proof

/-! ## Timestamp order (R198-R208) -/

/-- Whether a domain is enabled, of kind TS; its window (Table 7-4). -/
def domEn (s : State) (d : Nat) : Bool := bit (dev s (0x100400 + 8 * d)) 0
def domTs (s : State) (d : Nat) : Bool := bit (dev s (0x100400 + 8 * d)) 1
def domW (s : State) (d : Nat) : Option Nat :=
  let w := bits (dev s (0x100400 + 8 * d)) 13 8
  if w = 63 then none else some (2 ^ w)

/-- The order of (timestamp, sequence), sequences compared as signed differences modulo 2^32 (R199). -/
def tidLt (a b : Tid) : Bool := a.ts.ult b.ts || (a.ts == b.ts && (0#32).slt (b.seq - a.seq))

/-- The least of a domain's live tasks (R208). -/
def frontier (s : State) (d : Nat) : Option Tid :=
  s.live.foldl (fun acc l =>
    if l.task.tid.dom = d then
      match acc with
      | none => some l.task.tid
      | some t => if tidLt l.task.tid t then some l.task.tid else some t
    else acc) none

/-- The value of front: the frontier's timestamp, all ones where there is none or the domain is FREE (Table 8-2). -/
def frontVal (s : State) (d : Nat) : W64 :=
  if domTs s d then (match frontier s d with | some t => t.ts | none => BitVec.allOnes 64) else BitVec.allOnes 64

/-- Whether a context's task is a timestamp task, and whether it is the frontier task of its domain. -/
def isTs (s : State) (c : Ctx) : Bool :=
  match c.task with
  | none => false
  | some t => domTs s t.tid.dom
def isFront (s : State) (c : Ctx) : Bool :=
  match c.task with
  | none => false
  | some t => domTs s t.tid.dom && frontier s t.tid.dom == some t.tid
/-- A timestamp task that is not the frontier task. -/
def isSpec (s : State) (c : Ctx) : Bool := isTs s c && !isFront s c

/-- A timestamp task waits here until it is the frontier task (R186). -/
def needFrontier : Act Unit := fun s =>
  if isSpec s s.cx then .error (.wait .frontier none) s else .ok () s

/-! ## Publication (R61, R161, R182) -/

/-- The words of a line that a buffer line writes, as runs of bytes: the line if whole, else each whole 8-byte word,
else each byte. -/
def lineRuns (l : SbLine) : List (Nat × List Byte) :=
  if l.bytes.length = 64 then [(64 * l.line, l.bytes.map (·.2))]
  else (range' 0 8).flatMap (fun w =>
    let bs := l.bytes.filter (fun p => decide (8 * w ≤ p.1) && decide (p.1 < 8 * w + 8))
    if bs.length = 8 then [(64 * l.line + 8 * w, bs.map (·.2))]
    else bs.map (fun p => (64 * l.line + p.1, [p.2])))

/-- Whether the request that writes a line of host memory is not made: the link of its port is down, or it ends with an error
(R414). -/
def lineFails (s : State) (l : SbLine) : Bool :=
  match l.via with
  | none => false
  | some v => !getD s.host.up false (if getD s.host.port false l.line then 1 else 0) || s.host.bad.contains v.cid

/-- The fault of a buffered store whose request is not made, at a next instruction of its context; where the task has left it, by a
record (R414, R397). -/
def lineLost (s0 : State) (v : Via) : State :=
  let s := { s0 with host := { s0.host with bad := s0.host.bad.erase v.cid } }
  if (ctxOf s v.cid).task.any (fun t => t.tid = v.tid) then
    updCtx s v.cid (fun c => { c with trapNext := c.trapNext ++ [v.pend] })
  else
    let t := (s.live.find? (fun l => l.task.tid = v.tid)).map (·.task)
    raiseRec s (cidDie v.cid) { cause := cECC, kind := 0, flags := 0, addr := v.pend.f.addr, pc := v.pend.pc, ts := v.tid.ts
                                tseq := v.tid.seq.toNat, dom := v.tid.dom, prio := (t.map (·.prio)).getD 0
                                hidx := (t.map (·.hidx)).getD 0, who := 4096 * ownPkg s + v.cid, port := none, lane := none, pos := none
                                detail := v.pend.ir.flatMap (fun w => bytesOfNat 4 w.toNat), link := .none }

/-- A line leaves a store buffer: its bytes reach their home and the core's L1, then its tag changes (R58, R61, R182). One of host
memory whose request fails is not written (R414). -/
def publishLine (s : State) (core : Nat) (l : SbLine) : State :=
  if lineFails s l then (l.via.map (lineLost s)).getD s else
  let s1 := (lineRuns l).foldl (fun s r => fromDie (core / 128) r.1 (fun s => homeWrite s r.1 r.2) s)
    (portTurn s false (64 * l.line))
  let s2 := l.bytes.foldl (fun s p => l1Write s core (64 * l.line + p.1) p.2) s1
  let s3 := match l.author with
    | some a => if look l.bytes 0 = some 1 then signBy s2 (64 * l.line) a else s2
    | none => s2
  l.tags.foldl (fun s p => setTag s (tagKey s (64 * l.line + p.1)) p.2) s3

/-- A context's stores leave its journal and its buffer for their homes (R61, R206). -/
def publishCtx (s : State) (cid : Nat) : State :=
  let c := ctxOf s cid
  let ls := c.journal ++ c.sb
  let s1 := updCtx s cid (fun x => { x with journal := [], sb := [], chunks := 0 })
  let s2 := { s1 with chunksUsed := setD s1.chunksUsed 0 (cidDie cid) (getD s1.chunksUsed 0 (cidDie cid) - c.chunks) }
  ls.foldl (fun s l => publishLine s (coreOf cid) l) s2

/-- A release of the current context: its posted atomics are performed, and a free task's stores are published; a
timestamp task's stay for its commit (R162, R167). -/
def release : Act Unit := upd (fun s0 =>
  let s := drainAll s0 s0.cur
  if isTs s s.cx then s else publishCtx s s.cur)

/-- An acquire of the current context at a scope 1 CORE to 5 SYSTEM: at CLUSTER or wider its core's L1 is dropped
(R59, R167). -/
def acquire (scope : Nat) : Act Unit := upd (fun s => if 2 ≤ scope then l1Drop s (coreOf s.cur) else s)

/-! ## The conflict directory (R185, R201-R203) -/

/-- The address by which a line's home and set are found (R201); for a line of host memory, for which R201 gives none, its host
physical address, and for one of a peer its offset there (DESIGN CHOICE, log 45). -/
def dirX (loc : Nat) : Nat :=
  if loc < 2 ^ 32 then loc else if loc < hostBase then loc - hbmBase else if loc < peerBase then loc - hostBase
  else (loc - peerBase) % 2 ^ 39
def dirHome (x : Nat) : Nat := Nat.xor (Nat.xor (bits x 12 6) (bits x 19 13)) (bits x 26 20) % 32
def dirSet (x : Nat) : Nat := Nat.xor (Nat.xor (x / 2 ^ 7) (x / 2 ^ 18)) (x / 2 ^ 29) % 2 ^ 11

/-- The pre-empted task of an identity, with the die that holds it (R405). -/
def savedOf (s : State) (t : Tid) : Option (Nat × Ctx) :=
  s.disp.findSome? (fun d => (d.2.saved.find? (fun c => c.task.any (fun x => x.tid = t))).map (fun c => (d.1, c)))

/-- The buffered lines of a task, running or ended. -/
def linesOf (s : State) (t : Tid) : List SbLine :=
  match s.live.find? (fun l => l.task.tid = t) with
  | none => []
  | some l =>
    match l.st with
    | .running c => (ctxOf s c).sb
    | .ended => match s.ended.find? (fun e => e.tid = t) with
      | some e => e.sb
      | none => []
    | .waiting =>
      -- a pre-empted task: its lines are saved with it (R405)
      match savedOf s t with
      | some c => c.2.sb
      | none => []

/-- The tasks to abort with one task: its descendants, and the readers of the writes of any of them (R185). -/
def abortSet (s : State) : Nat → List Tid → List Tid
  | 0, ts => ts
  | f + 1, ts =>
    let more := s.live.filter (fun l => !ts.contains l.task.tid &&
      ((match l.task.parent with | some p => ts.contains p | none => false) || l.readFrom.any ts.contains))
    match more with
    | [] => ts
    | l :: _ => abortSet s f (l.task.tid :: ts)

/-- Whether a task descends from one of some tasks. -/
def descends (s : State) (ts : List Tid) : Nat → Tid → Bool
  | 0, _ => false
  | f + 1, t =>
    match s.live.find? (fun l => l.task.tid = t) with
    | none => false
    | some l =>
      match l.task.parent with
      | none => false
      | some p => ts.contains p || descends s ts f p

/-- A token as a port keeps it, and back. -/
def tokVec (t : Token) : Vec := BitVec.ofNat 512 (t.data.toNat + 2 ^ 32 * t.tag.toNat)
def vecTok (v : Vec) : Token := { tag := BitVec.ofNat 4 (bits v.toNat 35 32), data := BitVec.ofNat 32 (bits v.toNat 31 0) }

/-- An endpoint as it is left by a port that was bound to it: a stream in progress goes on with the next binding (R296). -/
def unbind (p : Port) (e : Endp) : Endp :=
  { e with bound := none, last := if p.done then none else p.last, kept := p.ahead.map vecTok ++ e.kept }

/-- The endpoints that a context's ports are bound to are left. -/
def leaveEndps (s : State) (c : Ctx) : State :=
  let mine (k : Nat) : Option Port := (c.ports.find? (fun p => match p.2.bind with
    | .channel _ e => decide (e = k)
    | _ => false)).map (·.2)
  { s with fab := { s.fab with endps := s.fab.endps.map (fun e => (e.1, match mine e.1 with
    | some p => unbind p e.2
    | none => e.2)) } }

/-- What a context that its task leaves keeps. -/
def emptied (c : Ctx) : Ctx :=
  { c with task := none, starting := false, wait := none, got := none, ports := [], group := none, trapNext := [], sb := [],
           journal := [], chunks := 0, held := [], committing := false, walked := [], idleFor := 0 }

/-- A context loses its task: its posted atomics are performed first; its ports' endpoints are unbound, it leaves every wait table,
and its registers stay
until the next task (R193, R296, R48). -/
def freeCtx (s0 : State) (cid : Nat) : State :=
  let s := drainAll s0 cid
  let c := ctxOf s cid
  let s1 := { leaveEndps s c with
    nodes := s.nodes.map (fun n => (n.1, { n.2 with waiters := n.2.waiters.filter (fun w => w.2 ≠ cid) })),
    chunksUsed := setD s.chunksUsed 0 (cidDie cid) (getD s.chunksUsed 0 (cidDie cid) - c.chunks) }
  updCtx s1 cid emptied

/-- A task's records leave the directory; an entry whose last record leaves is freed (R202). -/
def dropRecords (s : State) (t : Tid) : State :=
  { s with dir := (s.dir.map (fun e => (e.1, e.2.filter (fun r => r.tid ≠ t)))).filter (fun e => !e.2.isEmpty) }

/-- A line's worth of a die's 128 MiB region is written: the journal (half 0) or the spill area (half 1). The spec gives their layout
nowhere: which line it is and what it then holds are free values (log 16). What was spilled is kept beside. -/
def jrnlWrite (s : State) (die half : Nat) : State :=
  let base := bits (dev s (0x100610 + 8 * die)) 38 27 * 2 ^ 27 + half * 2 ^ 26
  let k := s.draws
  homeWrite { s with draws := k + 9 } (locHbm (base + 64 * ((Config.freeWord k).toNat % 2 ^ 20)))
    ((range' 1 8).flatMap (fun i => bytesOfNat 8 (Config.freeWord (k + i)).toNat))

/-- The launches that wait in a die's spawn queues. -/
def spawnCount (s : State) (die : Nat) : Nat := ((dispAt s die).spawn.map (fun q => q.2.length)).foldl (· + ·) 0

/-- Whether a die's spill area takes no further entry: it is not usable, or it is full of the spawn-queue entries beyond those that
its Dispatcher holds itself and of spilled heads. R206 gives its 64 MiB; that an entry takes 64 bytes is the model's (DESIGN
CHOICE, log 17). -/
def areaFull (s : State) (die : Nat) : Bool :=
  !bit (dev s (0x100610 + 8 * die)) 0 ||
    decide (2 ^ 20 ≤ spawnCount s die - (Config.spawnSlots + 1) + ((dispAt s die).queues.filter (fun q => q.2.spilled.isSome)).length)

/-- Whether a launch finds no room on a die: its Dispatcher holds what it can, and its spill area takes no more (R206, R215). -/
def spillFull (s : State) (die : Nat) : Bool := decide (Config.spawnSlots + 1 ≤ spawnCount s die) && areaFull s die

/-- A launch goes to the end of its domain's spawn queue, in the spill area where the Dispatcher holds no more itself (R215). -/
def queueSpawn (s : State) (die dom : Nat) (h : Head) : State :=
  updDisp (if Config.spawnSlots + 1 ≤ spawnCount s die then jrnlWrite s die 1 else s) die
    (fun d => { d with spawn := put d.spawn dom (getD d.spawn [] dom ++ [{ h with since := s.cycle }]) })

/-- A launch joins its domain's spawn queue on a die; a full spill area holds it back at its source (R206, R215). -/
def joinSpawn (s : State) (die dom : Nat) (h : Head) : State :=
  if (dispAt s die).due.isEmpty && !spillFull s die then queueSpawn s die dom h
  else updDisp s die (fun d => { d with due := d.due ++ [h] })

/-- A queue without some of its heads; what then comes first becomes head at a cycle (R216). -/
def cutQueue (now : Nat) (out : Head → Bool) (q : List Head) : List Head :=
  match q with
  | [] => []
  | h :: r =>
    if out h then
      match r.filter (fun x => !out x) with
      | [] => []
      | y :: ys => { y with since := now } :: ys
    else h :: r.filter (fun x => !out x)

/-- A head that dispatches one task again, with its identity (R185, R408). -/
def headOf (t : Task) (now : Nat) (dropFirst : Nat) : Head :=
  { packet := t.packet, entry := t.entry, ts := t.tid.ts, csc := t.csc, parent := t.parent, super := t.super, gang := false,
    todo := [(t.x, t.y, t.tid.seq)], since := now, aged := false, cursor := none, dropFirst := dropFirst, fresh := false }

/-- A context's reservation for its task's area ends with the task (R405). -/
def freeHome (s : State) (t : Task) (cid : Nat) : State :=
  if t.home = cid then s else updCtx s t.home (fun c => { c with reserved := false })

/-- A pre-empted task is saved no more: its endpoints, its journal chunks and its area are free (R296, R405). -/
def dropSaved (s : State) (die : Nat) (c : Ctx) : State :=
  let s1 := { leaveEndps s c with chunksUsed := setD s.chunksUsed 0 die (getD s.chunksUsed 0 die - c.chunks) }
  let s2 := updDisp s1 die (fun d => { d with saved := d.saved.erase c })
  match c.task with
  | none => s2
  | some t => updCtx s2 t.home (fun x => { x with reserved := false })

/-- Heads leave the launches that wait on every die, some of them changed first; a new first of a queue is head from now on. -/
def cutHeads (s : State) (less : Head → Head) (out : Head → Bool) : State :=
  { s with disp := s.disp.map (fun d => (d.1, { d.2 with
      due := (d.2.due.map less).filter (fun h => !out h)
      spawn := d.2.spawn.map (fun q => (q.1, cutQueue s.cycle out (q.2.map less))) })) }

/-- One task is aborted: what it holds is discarded, and what it has spawned and is not yet accepted goes with it (R209); it waits at the
tail of its domain's spawn queue on the die where it last ran, or, a descendant of an aborted task, it is gone (R185). One that waits
for its first start waits on. -/
def abortOne (s : State) (t : Tid) (again : Bool) : State :=
  match s.live.find? (fun l => l.task.tid = t) with
  | none => s
  | some l =>
    let at_ : Option Nat := match l.st with
      | .running c => some (cidDie c)
      | .ended => (s.ended.find? (fun e => e.tid = t)).map (fun e => cidDie e.cid)
      | .waiting => (savedOf s t).map (·.1)
    let s1 := match l.st, savedOf s t with
      | .running c, _ => freeHome (freeCtx s c) l.task c
      | .waiting, some x => dropSaved s x.1 x.2
      | _, _ => s
    let s2 := dropRecords { s1 with ended := s1.ended.filter (fun e => e.tid ≠ t) } t
    let child (h : Head) : Bool := h.fresh && h.parent == some t
    match again, at_ with
    | true, some die =>
      joinSpawn { cutHeads s2 (fun h => h) child with live := s2.live.map (fun x =>
          if x.task.tid = t then { x with st := .waiting, readFrom := [], dropped := false } else x) } die t.dom (headOf l.task s.cycle 0)
    | true, none => s2
    | false, _ =>
      let less (h : Head) : Head :=
        if bits h.packet.toNat 15 10 = t.dom ∧ h.ts = t.ts then { h with todo := h.todo.filter (fun x => x.2.2 ≠ t.seq) } else h
      { cutHeads s2 less (fun h => if h.fresh then child h else h.todo.isEmpty) with live := s2.live.filter (fun x => x.task.tid ≠ t) }

/-- A task is aborted with all that must be aborted with it (R185). -/
def abortTask (s : State) (t : Tid) (again : Bool) : State :=
  let all := abortSet s s.live.length [t]
  all.foldl (fun s' u => abortOne s' u (if u = t then again else !descends s all s.live.length u)) s

/-- The latest of some tasks by (timestamp, sequence). -/
def latest : List Tid → Option Tid
  | [] => none
  | t :: r =>
    match latest r with
    | none => some t
    | some u => if tidLt u t then some t else some u

/-- How a record of an access is made: made; the access waits for a commit; the requester itself was aborted. -/
inductive DirRes where
  | made (s : State) | waits | selfAborted (s : State)

/-- Records a timestamp task's access to an Ordered line, making room by R202; fuel counts the aborts. -/
def dirNote (line : Nat) (t : Tid) (wr : Bool) : Nat → State → DirRes
  | 0, _ => .waits
  | f + 1, s =>
    let ent := getD s.dir [] line
    let set_ (r : DirRec) : DirRec := if wr then { r with wr := true } else { r with rd := true }
    if ent.any (fun r => r.tid = t) then
      .made { s with dir := put s.dir line (ent.map (fun r => if r.tid = t then set_ r else r)) }
    else
      let x := dirX (64 * line)
      let same := s.dir.filter (fun e => dirHome (dirX (64 * e.1)) = dirHome x ∧ dirSet (dirX (64 * e.1)) = dirSet x)
      if ent.length < 8 ∧ (!ent.isEmpty ∨ same.length < 8) then
        .made { s with dir := put s.dir line (ent ++ [{ tid := t, rd := !wr, wr := wr }]) }
      else
        let cands := if 8 ≤ ent.length then ent.map (·.tid) else same.flatMap (fun e => e.2.map (·.tid))
        let ok := (t :: cands).filter (fun u => frontier s u.dom != some u)
        match latest ok with
        | none => .waits
        | some u =>
          let s' := abortTask s u true
          if s'.live.any (fun l => l.task.tid = t ∧ l.st ≠ .waiting) then dirNote line t wr f s' else .selfAborted s'

/-- The readers with a later (timestamp, sequence) that a write to a line aborts (R185). -/
def abortReaders (s : State) (line : Nat) (t : Tid) : State :=
  ((getD s.dir [] line).filter (fun r => r.rd && r.tid.dom == t.dom && tidLt t r.tid)).foldl
    (fun s r => abortTask s r.tid true) s

/-- The posted atomics of every context to a line are performed. -/
def postedTo (s : State) (line : Nat) : State :=
  if (allCids s).any (fun c => (ctxOf s c).posted.any (fun p => p.line = line)) then
    (allCids s).foldl (fun s c => drainPosted s c line) s
  else s

/-- A timestamp task's access to an Ordered line consults the directory before it completes (R201); posted atomics to the line that
came before it are performed first, so that none of them writes the line unseen after it (R185, R280). -/
def ordered (line : Nat) (wr : Bool) : Act Unit := fun s0 =>
  let s := postedTo s0 line
  match s.cx.task with
  | none => .ok () s
  | some t =>
    match dirNote line t.tid wr (s.live.length + 1) s with
    | .made s1 => .ok () (if wr then abortReaders s1 line t.tid else s1)
    | .waits => .error (.wait (.room (.dir line wr)) none) s
    | .selfAborted s1 => .error (.gone s1) s1

/-- The latest buffered byte of an earlier task of the domain whose write of the line the directory has recorded, and that task
(R203). -/
def forwardByte (s : State) (t : Tid) (loc : Nat) : Option (Tid × Byte) :=
  let writers := ((getD s.dir [] (loc / 64)).filter (·.wr)).map (·.tid)
  s.live.foldl (fun acc l =>
    if l.task.tid.dom = t.dom ∧ tidLt l.task.tid t ∧ writers.contains l.task.tid then
      match ((linesOf s l.task.tid).find? (fun b => b.line = loc / 64)).bind (fun b => look b.bytes (loc % 64)) with
      | none => acc
      | some b =>
        match acc with
        | none => some (l.task.tid, b)
        | some (u, _) => if tidLt u l.task.tid then some (l.task.tid, b) else acc
    else acc) none

/-! ## Loads and stores of a context (R61, R62, R205, R206) -/

/-- The tag of an S-address as the context sees it: its own buffered change, else the home's (R271). -/
def ownTag (s : State) (a : Nat) : Bool :=
  match (s.cx.sb.find? (fun l => l.line = a / 64)).bind (fun l => look l.tags (a % 64)) with
  | some b => b
  | none => tagFull s (tagKey s a)

/-- The n bytes of one line as the current context reads them (R62): each byte from its own buffer, then for a timestamp
task's Ordered line from an earlier task's, then as base gives it for the locations that are left. What such a task reads from
committed memory is what the line's home holds, whatever an L1 has kept of it (R179, R203). -/
def loadOver (x : Xl) (n : Nat) (base : List Nat → Act (List Byte)) : Act (List Byte) := do
  upd (fun s => drainPosted s s.cur (x.loc / 64))
  let c ← view (·.cx)
  let ts ← view (fun s => isTs s s.cx)
  if ts && x.o then
    ordered (x.loc / 64) false
    upd (fun s => l1DropLine s (coreOf s.cur) (x.loc / 64))
  else pure ()
  let own := (range' x.loc n).map (ownByte c)
  if own.all Option.isSome then pure (own.map (fun b => b.getD 0))
  else
    let fwd ← view (fun s => match c.task with
      | some t => if ts && x.o then (range' x.loc n).map (forwardByte s t.tid) else []
      | none => [])
    let home ← base ((range' x.loc n).filter (fun l =>
      (own.getD (l - x.loc) none).isNone && (fwd.getD (l - x.loc) none).isNone))
    match c.task with
    | some t => upd (fun s => if fwd.any Option.isSome then
        { s with live := s.live.map (fun l => if l.task.tid = t.tid then
            { l with readFrom := (fwd.filterMap (fun f => f.map (·.1))).eraseDups ++ l.readFrom } else l) } else s)
    | none => pure ()
    pure ((range' 0 n).map (fun i =>
      match own.getD i none with
      | some b => b
      | none => match fwd.getD i none with
        | some (_, b) => b
        | none => home.getD i 0))

/-- Whether a core's L1 holds the line of a target. -/
def l1Has (s : State) (core : Nat) (x : Xl) : Bool :=
  x.c && decide (x.t < 3) && (coreAt s core).l1d.any (fun l => l.line == x.loc / 64)

/-- A load of n bytes of one line by the current context, from the L1 or the target beyond what its buffer holds. A
poisoned byte read from the target traps ECC_UE (R62, R402). -/
def loadBytes (x : Xl) (n : Nat) (addr : W64) : Act (List Byte) := loadOver x n (fun need => do
  let bad ← view (fun s => !l1Has s (coreOf s.cur) x && need.any (fun l => poisoned s l 1))
  if bad then trapAt cECC addr
  else (fun s => let r := l1Read (portTurn s false x.loc) (coreOf s.cur) x n; .ok r.1 r.2))

/-- The lines of a core's buffer charged to its pool (R205). -/
def poolUsed (s : State) (core : Nat) : Nat :=
  let run := (range' (8 * core) 8).foldl (fun n c => n + ((ctxOf s c).sb.filter (·.pooled)).length) 0
  (s.ended.filter (fun e => coreOf e.cid = core)).foldl (fun n e => n + (e.sb.filter (·.pooled)).length) run

/-- The lines charged to a context's own 16, its ended tasks' among them (R205). -/
def ownUsed (s : State) (cid : Nat) : Nat :=
  (s.ended.filter (fun e => e.cid = cid)).foldl (fun n e => n + (e.sb.filter (fun l => !l.pooled)).length)
    (((ctxOf s cid).sb.filter (fun l => !l.pooled)).length)

/-- Merges bytes and tag changes of a writer into a buffer line. -/
def mergeLine (l : SbLine) (a : Author) (via : Option Via) (loc : Nat) (bs : List Byte) (tag : Option Bool) : SbLine :=
  { l with
    via := via
    author := if loc % 64 = 0 && !bs.isEmpty then some a else l.author
    bytes := (range' 0 bs.length).foldl (fun m i => put m (loc % 64 + i) (bs.getD i 0)) l.bytes
    tags := match tag with
      | some b => put l.tags (loc % 64 / 8 * 8) b
      | none => l.tags }

/-- A store that overflows: the current free task's oldest line goes to its die's journal, and the new line takes its place in the
buffer and its charge (R206). Where the task holds no line there, its context's 16 being those of ended tasks, R206 does not say what
is spilled: its new line is (DESIGN CHOICE, log 53). -/
def spillLine (ea : W64) (new : Bool → SbLine) : Act Unit := fun s =>
  let die := cidDie s.cur
  let (l, sb) := match s.cx.sb with
    | [] => (new true, [])
    | l :: rest => (l, rest ++ [new l.pooled])
  if !bit (dev s (0x100610 + 8 * die)) 0 then .error (.trap (faultAt cSPILL ea) none) s
  else
    let need := (s.cx.journal.length + 1 + Config.chunkLines) / (Config.chunkLines + 1)
    if need ≤ s.cx.chunks then
      let s := jrnlWrite s die 0
      .ok () { s with cx := { s.cx with sb := sb, journal := s.cx.journal ++ [l] } }
    else if 1024 ≤ s.cx.chunks then .error (.trap (faultAt cSPILL ea) none) s
    else if 1024 ≤ getD s.chunksUsed 0 die then .error (.wait (.chunk s.cycle ea) none) s
    else
      let s := jrnlWrite s die 0
      .ok () { s with
        cx := { s.cx with sb := sb, journal := s.cx.journal ++ [l], chunks := s.cx.chunks + 1 }
        chunksUsed := put s.chunksUsed die (getD s.chunksUsed 0 die + 1) }

/-- A plain store of bytes of one line, with a tag change for an STE or FESET of a timestamp task: into the line the
context holds, a new line within its charge, or by overflow (R61, R205, R206, R271). -/
def storeBytes (ea : W64) (loc : Nat) (bs : List Byte) (tag : Option Bool) (isOrdered : Bool) : Act Unit := do
  upd (fun s => drainPosted s s.cur (loc / 64))
  let ts ← view (fun s => isTs s s.cx)
  if ts && isOrdered then ordered (loc / 64) true else pure ()
  let c ← view (·.cx)
  let cid ← view (·.cur)
  let via : Option Via := if hostBase ≤ loc ∧ loc < peerBase then
      c.task.map (fun t => { cid := cid, tid := t.tid, pend := { f := faultAt cECC ea, pc := c.pc, ir := c.ir } })
    else none
  let new (pooled : Bool) : SbLine :=
    mergeLine { line := loc / 64, bytes := [], tags := [], pooled := pooled, author := none, via := none } c.author via loc bs tag
  if c.committing then
    upd (fun s => publishLine s (coreOf s.cur) (new false))
  else if c.sb.any (fun l => l.line = loc / 64) then
    upd (fun s => { s with cx := { s.cx with
      sb := s.cx.sb.map (fun l => if l.line = loc / 64 then mergeLine l c.author via loc bs tag else l) } })
  else
    let own ← view (fun s => ownUsed s s.cur)
    let pool ← view (fun s => poolUsed s (coreOf s.cur))
    let add (p : Bool) : Act Unit := upd (fun s => { s with cx := { s.cx with sb := s.cx.sb ++ [new p] } })
    if own < 16 then add false
    else if pool < 384 then add true
    else if ts then
      needFrontier
      upd (fun s => publishCtx { s with cx := { s.cx with committing := true } } s.cur)
      upd (fun s => publishLine s (coreOf s.cur) (new false))
    else spillLine ea new

end Sys2Proof.Machine
end

