-- ==== Sys2Proof/Machine/Net.lean ====
section
/-! DEFINITION. Channels of the token mesh: fields of an element, route filters of tokens, destinations, delivery, taking
tokens from inputs, SKIP, and the structure of streams (spec/04 R95-R101, R114-R116, spec/12 R347-R353, R378). -/

namespace Sys2Proof.Machine
open Sys2Proof

/-! ## Tags (Table 4-2) -/

def tCOORD : BitVec 4 := 0
def tREF : BitVec 4 := 1
def tVAL : BitVec 4 := 2
def tDONE : BitVec 4 := 15
/-- The stop S_k. -/
def tStop (k : Nat) : BitVec 4 := BitVec.ofNat 4 (8 + k)
/-- Whether a tag is a stop, and its level. -/
def isStop (t : BitVec 4) : Bool := decide (8 ≤ t.toNat) && decide (t.toNat < 15)
def stopLevel (t : BitVec 4) : Nat := t.toNat - 8
/-- Whether a tag is COORD, REF or VAL. -/
def isData (t : BitVec 4) : Bool := decide (t.toNat < 3)
def tokStop (k : Nat) : Token := { tag := tStop k, data := 0 }
def tokDone : Token := { tag := tDONE, data := 0 }
def tokCoord (c : Nat) : Token := { tag := tCOORD, data := BitVec.ofNat 32 c }
def tokRef (c : Nat) : Token := { tag := tREF, data := BitVec.ofNat 32 c }
def tokVal (c : Nat) : Token := { tag := tVAL, data := BitVec.ofNat 32 c }

/-- Whether a token may come next in a stream of a depth, after the tag before it (R98). A depth of 0 leaves the checks
that need none (R289). -/
def streamOk (depth : Nat) (last : Option (BitVec 4)) (tag : BitVec 4) : Bool :=
  let root := depth - 1
  let closed : Bool := match last with
    | none => false
    | some l => if depth = 0 then isStop l else isStop l && decide (stopLevel l = root)
  let past : Bool := last == some tDONE
  if past then false
  else if tag = tDONE then closed
  else if depth = 0 then true
  else if closed then false
  else if isStop tag then decide (stopLevel tag ≤ root)
  else true

/-! ## Elements and graphs -/

/-- The site at a relative site of a graph: dr in [11:6], dc in [5:0] (R347). -/
def relSite (g : Graph) (rel : Nat) : Nat := 2304 * g.die + 48 * (g.row + rel / 64) + (g.col + rel % 64)

/-- The reset value of a configuration field at a kind of site (Tables 12-3, 12-8). -/
def fieldReset (kind f : Nat) : Nat :=
  if 6 ≤ f ∧ f ≤ 9 then 0x60
  else if kind = 0xA ∧ f = 0x12 then 0xFFF
  else if kind = 0xA ∧ f = 0x15 then 0x22
  else 0

/-- The kind of a site by its key. -/
def kindAt (s : State) (site : Nat) : Nat := siteKind s (site / 2304) (site % 2304)

/-- A configuration field of an element context. -/
def fld (s : State) (k f : Nat) : Nat :=
  match look (elemAt s k).fields f with
  | some v => v
  | none => fieldReset (kindAt s (k / 4)) f

/-- Sites of four contexts (Table 12-1). -/
def fourCtx (kind : Nat) : Bool := (decide (1 ≤ kind) && decide (kind ≤ 9)) || kind == 0xB

/-! ## Route filters of tokens (R114-R116) -/

/-- An entry of a router's Mordant table; entry 0 is NONE (R114). -/
def mordant (s : State) (site table entry : Nat) : Nat :=
  if entry = 0 then 0 else (getD s.fab.mordant 0 ((3 * site + table) * 16 + entry)).toNat

/-- The formats of CONV (R116). -/
def convSrc (f : Nat) : Bool := [0, 1, 2, 3, 4, 5, 7, 8, 9, 0xC, 0xD].contains f
def convDst (f : Nat) : Bool := [0, 1, 2, 3, 4, 5, 7, 8, 9, 0xC].contains f

/-- Whether a token channel of a value format, or of none, may select an entry (R69, R79, R116). A four-bit result has no token
(R96). -/
def mordTokenOk (e : Nat) (fmt : Option Nat) (w2 : Bool) : Bool :=
  decide (bits e 14 12 ≤ 4) &&
  (match bits e 3 0 with
   | 0 => decide (bits e 7 4 < 14) && decide (bits e 11 8 < 14)
   | 1 => !w2 && fmt == some (bits e 7 4) && convSrc (bits e 7 4) && convDst (bits e 11 8) &&
       !([5, 8, 9].contains (bits e 11 8)) && !([5, 8, 9].contains (bits e 7 4))
   | _ => false)

/-- A token as its route's filter leaves it. -/
def mordToken (e : Nat) (t : Token) : Token :=
  if t.tag = tVAL ∧ bits e 3 0 = 1 then
    { t with data := BitVec.ofNat 32 (elemEnc (bits e 11 8) (rmOf (bits e 14 12)) (bits e 18 15)
        (elemVal (bits e 7 4) (bits e 18 15) t.data.toNat)) }
  else t

/-! ## Destinations and delivery (R353) -/

/-- Where a channel ends: an input of an element, an endpoint of a core, the source end of a circuit. -/
inductive Dest where
  | elem (k : Nat) (inp : Nat)
  | endp (k : Nat)
  | circ (c : Nat)
deriving DecidableEq, Repr

/-- The input that DPORT names at a site. -/
def destAt (s : State) (site dport : Nat) : Dest :=
  let kind := kindAt s site
  if kind = 0xE then .endp (16 * site + dport)
  else if fourCtx kind then .elem (4 * site + dport / 4) (dport % 4)
  else .elem (4 * site) (dport % 4)

/-- The destinations of an output of an element: none where it is unused. -/
def outDests (s : State) (k out : Nat) : List Dest :=
  let a := fld s k (6 + out)
  if bits a 6 5 = 3 then []
  else if bit a 8 then [.circ (bits (fld s k (2 + out)) 9 0)]
  else
    match graphAt s (k / 4) with
    | none => []
    | some (_, g) =>
      let d := destAt s (relSite g (bits (fld s k (2 + out)) 11 0)) (bits a 13 10)
      if bit a 9 then
        let f := fld s k (0xA + out)
        let site := relSite g (bits f 11 0)
        [d, destAt s site (if kindAt s site = 0xE then bits f 13 12 else 4 * (bits a 13 12) + bits f 13 12)]
      else [d]

/-- The destination of an output endpoint (R378). -/
def endpDests (s : State) (k : Nat) : List Dest :=
  match graphAt s (k / 16) with
  | none => []
  | some (_, g) => [destAt s (relSite g (endpAt s k).dest) (bits (endpAt s k).cfg 12 9)]

def circuitAt (s : State) (c : Nat) : Circuit := getD s.fab.circuits Circuit.reset c
def updCircuit (s : State) (c : Nat) (f : Circuit → Circuit) : State :=
  { s with fab := { s.fab with circuits := setD s.fab.circuits Circuit.reset c (f (circuitAt s c)) } }

/-- The free entries of a destination: 4 at an input (R353), none while its context is stopped by a freeze (R390), 12 tokens of a
packet at a circuit (R426). -/
def roomAt (s : State) : Dest → Nat
  | .elem k i => if (elemAt s k).frozen then 0 else 4 - (getD (elemAt s k).ins [] i).length
  | .endp k => 4 - (endpAt s k).buf.length
  | .circ c => 12 - (circuitAt s c).buf.length

/-- Whether every destination has room. -/
def hasRoom (s : State) (ds : List Dest) : Bool := ds.all (fun d => decide (0 < roomAt s d))

/-- A token as it is produced: the payload of a stop and of DONE is zero (Table 4-2). -/
def produced (t : Token) : Token := if isStop t.tag || t.tag == tDONE then { t with data := 0 } else t

/-- A token arrives at a destination. -/
def deliver1 (s : State) (t : Token) : Dest → State
  | .elem k i => updElem s k (fun e => { e with ins := put e.ins i (getD e.ins [] i ++ [produced t]) })
  | .endp k => updEndp s k (fun e => { e with buf := e.buf ++ [produced t] })
  | .circ c => updCircuit s c (fun x => { x with buf := x.buf ++ [produced t], since := s.cycle })

/-- A token arrives at each destination (FAN, R353). -/
def deliver (s : State) (ds : List Dest) (t : Token) : State := ds.foldl (fun s d => deliver1 s t d) s

/-- The producer of a channel (R100): an output of an element. -/
def producerOf (s : State) (d : Dest) : Option (Nat × Nat) :=
  s.fab.elems.findSome? (fun e =>
    (range' 0 4).findSome? (fun o => if (outDests s e.1 o).contains d then some (e.1, o) else none))

/-- Credit of a stop taken returns to its producer. A SKIP still on its way was sent before it: it finds the stop not yet taken, and
is discarded (R100). -/
def stopTaken (s : State) (d : Dest) : State :=
  match producerOf s d with
  | none => s
  | some (k, o) => updElem s k (fun e => { e with stops := setD e.stops 0 o (getD e.stops 0 o - 1), skip := del e.skip o })

/-- SKIP(c) on the back-channel of a channel: its slot keeps the greater; discarded on a fan-out channel, and where a
stop is under way (R100, R353). -/
def sendSkip (s : State) (d : Dest) (c : W32) : State :=
  match producerOf s d with
  | none => s
  | some (k, o) =>
    if bit (fld s k (6 + o)) 9 then s
    else updElem s k (fun e =>
      match look e.skip o with
      | none => { e with skip := put e.skip o c }
      | some old => if old.ult c then { e with skip := put e.skip o c } else e)

/-- The head token of an input of an element. -/
def headAt (s : State) (k i : Nat) : Option Token := (getD (elemAt s k).ins [] i).head?

/-- An element takes the head token of an input: its tag and place are recorded; after DONE a new stream begins. -/
def takeAt (s : State) (k i : Nat) : State :=
  match headAt s k i with
  | none => s
  | some t =>
    let s1 := updElem s k (fun e => { e with
      ins := setD e.ins [] i ((getD e.ins [] i).drop 1)
      last := if t.tag = tDONE then del e.last i else put e.last i t.tag
      count := setD e.count 0 i (getD e.count 0 i + 1) })
    if isStop t.tag then stopTaken s1 (.elem k i) else s1

/-! ## Start and control tokens (R354) -/

/-- A start token is sent to an element context. -/
def startToken (s : State) (k : Nat) : State := updElem s k (fun e => { e with coming := e.coming + 1 })

/-- START_TOKEN_ARRIVE: it ends the context's wait, or is kept, one at most. -/
def startArrive (s : State) (k : Nat) : State :=
  if (elemAt s k).coming = 0 then s
  else updElem s k (fun e =>
    if e.waiting then { e with coming := e.coming - 1, waiting := false, done := false } else { e with coming := e.coming - 1, held := true })

end Sys2Proof.Machine
end

