-- ==== Sys2Proof/Machine/Tasks.lean ====
section
/-! DEFINITION. Fault records, launches and the Dispatcher, futures, groups, and how a task ends (spec/07, spec/11, spec/13). -/

namespace Sys2Proof.Machine
open Sys2Proof

/-! ## Fault records (R397, R398) -/

/-- `ctxid` of a context (Table 8-2). -/
def ctxId (s : State) (cid : Nat) : Nat := cid % 8 + 8 * (cid / 8 % 128) + 1024 * (cid / 1024) + 4096 * ownPkg s

/-- The record area of a die, while FRB names one MB slice of that die (R397). -/
def frbBase (s : State) (die : Nat) : Option Nat :=
  let v := dev s (0x100810 + 8 * die)
  let b := bits v 31 17 * 2 ^ 17
  if bit v 0 && decide (b / 2 ^ 30 = die) && sPlace s b == .bank then some b else none

/-- The lowest-numbered record whose BUSY is clear. -/
def freeRec (s : State) (die : Nat) : Option Nat :=
  (frbBase s die).bind (fun b => (range' 0 1024).find? (fun n => !bit (rdByte s (b + 128 * n + 3)).toNat 7))

/-- A record with nothing but a cause and a kind. -/
def recOf (cause kind : Nat) : Rec :=
  { cause := cause, kind := kind, flags := 0, addr := 0, pc := 0, ts := 0, tseq := 0, dom := 0, prio := 0, hidx := 0,
    who := 0, port := none, lane := none, pos := none, detail := [], link := .none }

/-- The 128 bytes of a record, BUSY set (Tables 13-3, 13-4). -/
def recBytes (r : Rec) (seq : Nat) : List Byte :=
  let ps := r.pos.getD (0, 0, 0)
  let fl := 0x80 + r.flags % 0x80
  bytesOfNat 2 r.cause ++ bytesOfNat 1 r.kind ++ bytesOfNat 1 fl ++ bytesOfNat 4 seq ++ bytesOfNat 8 r.addr.toNat ++
  bytesOfNat 8 r.pc.toNat ++ bytesOfNat 8 r.ts.toNat ++ bytesOfNat 4 r.tseq ++ bytesOfNat 1 r.dom ++
  bytesOfNat 1 r.prio ++ bytesOfNat 2 r.hidx ++ bytesOfNat 8 r.who ++ bytesOfNat 1 (r.port.getD 0xFF) ++
  bytesOfNat 1 (r.lane.getD 0xFF) ++ bytesOfNat 2 0 ++ bytesOfNat 4 ps.1 ++ bytesOfNat 2 ps.2.1 ++
  bytesOfNat 2 ps.2.2 ++ bytesOfNat 4 0 ++ (r.detail ++ List.replicate 64 0).take 64

/-- Writes a record on a die if one is free: its S-address, its number and the state. -/
def writeRec (s : State) (die : Nat) (r : Rec) : Option (Nat × Nat × State) :=
  match frbBase s die, freeRec s die with
  | some b, some n =>
    let d := dispAt s die
    let s1 := homeWrite s (b + 128 * n) (recBytes r d.recSeq.toNat)
    let s2 := updDisp s1 die (fun d => { d with recSeq := d.recSeq + 1 })
    let s3 := match r.link with
      | .none => s2
      | .copy e i => updEngine s2 e (fun g => { g with copies := g.copies.map (fun c =>
          if c.id = i ∧ !c.abandoned then { c with faulted := some (some n) } else c) })
      | .elem k => updElem s2 k (fun e => { e with faulted := some (some n) })
    some (b + 128 * n, n, s3)
  | _, _ => none

/-- An asynchronous fault: its record is written, or waits for one; then a fault task is due (R397, R401). -/
def asyncRec (s0 : State) (die : Nat) (r : Rec) : State :=
  let s := countCause s0 die r.cause
  match writeRec s die r with
  | some (_, n, s') => updDisp s' die (fun d => { d with ftask := d.ftask ++ [n] })
  | none => updDisp s die (fun d => { d with recWait := d.recWait ++ [(r, true)] })

/-- A refusal of a packet, template or continuation: source 0 task queue, 1 copy queue, 2 spawn, template or
continuation (Table 13-4). -/
def refuse (s : State) (die queue source slot : Nat) (f : FaultInfo) : State :=
  asyncRec s die { recOf f.cause 3 with
    addr := f.addr, detail := bytesOfNat 2 queue ++ bytesOfNat 1 source ++ [0] ++ bytesOfNat 8 slot }

/-! ## Launch packets (Table 7-6) -/

/-- Bits [hi:lo] of a packet. -/
def pk (p : BitVec 512) (hi lo : Nat) : Nat := bits p.toNat hi lo
def pkDom (p : BitVec 512) : Nat := pk p 15 10
def pkPrio (p : BitVec 512) : Nat := pk p 21 16
def pkHidx (p : BitVec 512) : Nat := pk p 48 33
def pkNx (p : BitVec 512) : Nat := pk p 56 49 + 1
def pkNy (p : BitVec 512) : Nat := pk p 63 57 + 1
def pkTs (p : BitVec 512) : W64 := BitVec.ofNat 64 (pk p 127 64)

/-- The packet that 64 bytes hold. -/
def packetOf (bs : List Byte) : BitVec 512 := BitVec.ofNat 512 (natOfBytes bs)

/-- R211's conditions on a packet, VALID apart. -/
def launchBad (s : State) (p : BitVec 512) : Bool :=
  let n := pkNx p * pkNy p
  pk p 9 8 == 3 || decide (4 < pk p 24 22) || (pk p 9 8 == 0 && n != 1) ||
  (pk p 9 8 == 2 && (decide (n < 2) || decide (16 < n))) || decide (bits (dev s 0x100638) 16 0 ≤ pkHidx p) ||
  !domEn s (pkDom p)

/-- Whether a target lies in host memory behind a link that is down (R414). -/
def linkDown (s : State) (x : Xl) : Bool := x.t == 1 && !getD s.host.up false (if x.hp then 1 else 0)

/-- The address of a handler's entry (R251). -/
def entryVa (s : State) (hidx : Nat) : W64 := (BitVec.ofNat 57 (bits (dev s 0x100630) 56 4 * 16 + 16 * hidx)).signExtend 64

/-- The handler's first instruction, by a read of its entry (R251). -/
def entryBy (s : State) (u : Agt) (hidx : Nat) : Except FaultInfo W64 :=
  let va := entryVa s hidx
  match agtXlOf s u va .rd 16 16 true with
  | .error f => .error f
  | .ok x =>
    if linkDown s x ∨ poisoned s x.loc 16 then .error (faultAt cECC va)
    else
      let bs := (homeRead s x.loc 16).1
      let e := natOfBytes (bs.take 8)
      if !bit (natOfBytes (bs.drop 8)) 0 || e % 4 != 0 then .error (faultAt cCFGBAD 0) else .ok (BitVec.ofNat 64 e)

/-- The same within another step, by a whole walk, and the pointers that it leaves in the page-walk cache (R29; log 1). -/
def handlerEntry (s : State) (die hidx : Nat) : Except FaultInfo W64 := entryBy s (wholeAgt die) hidx
def entryNote (s : State) (die hidx : Nat) : State := walkNote s die (entryVa s hidx).toNat

/-- The points of a strip of width v and height ny in Morton or Hilbert order over a square of side 2^m (R217). -/
def evenBits : Nat → Nat → Nat
  | 0, _ => 0
  | m + 1, d => d % 2 + 2 * evenBits m (d / 4)

/-- hilbert(d, n) of R217, from s on; fuel counts the levels. -/
def hilbert : Nat → Nat → Nat → Nat → Nat → Nat × Nat
  | 0, _, _, x, y => (x, y)
  | m + 1, t, s, x, y =>
    let a := t / 2 % 2
    let b := Nat.xor t a % 2
    let (x1, y1) := if b = 0 then (if a = 1 then (s - 1 - y, s - 1 - x) else (y, x)) else (x, y)
    hilbert m (t / 4) (s * 2) (x1 + s * a) (y1 + s * b)

/-- log2 of the least power of two that is not below n. -/
def clog2 (n : Nat) : Nat := if n ≤ 1 then 0 else Nat.log2 (n - 1) + 1

/-- The order within a strip of width v. -/
def stripOrder (trav v ny : Nat) : List (Nat × Nat) :=
  let m := clog2 (max v ny)
  let square (f : Nat → Nat × Nat) : List (Nat × Nat) :=
    ((range' 0 (4 ^ m)).map f).filter (fun q => decide (q.1 < v) && decide (q.2 < ny))
  match trav with
  | 0 => (range' 0 ny).flatMap (fun y => (range' 0 v).map (fun x => (x, y)))
  | 1 => (range' 0 v).flatMap (fun x => (range' 0 ny).map (fun y => (x, y)))
  | 2 => square (fun d => (evenBits m d, evenBits m (d / 2)))
  | _ => square (fun d => hilbert m d 1 0 0)

/-- The traversal order of a launch (R217). -/
def traversal (p : BitVec 512) : List (Nat × Nat) :=
  let w := pk p 32 27 + 1
  let nx := pkNx p
  (range' 0 ((nx + w - 1) / w)).flatMap (fun k =>
    (stripOrder (pk p 26 25) (min w (nx - k * w)) (pkNy p)).map (fun q => (k * w + q.1, q.2)))

/-! ## Acceptance: sequence numbers (R199, R208) -/

/-- A task of a head. -/
def taskOf (h : Head) (x y : Nat) (seq : W32) : Task :=
  { tid := { dom := pkDom h.packet, ts := h.ts, seq := seq }, prio := pkPrio h.packet, csc := h.csc, hidx := pkHidx h.packet,
    packet := h.packet, entry := h.entry, x := x, y := y, lin := y * pkNx h.packet + x, parent := h.parent, home := 0,
    super := h.super, issued := 0, dropFirst := h.dropFirst, exposed := false }

/-- A launch as a head that is not yet accepted. -/
def launchHead (p : BitVec 512) (ts : W64) (csc : Nat) (parent : Option Tid) (super gang : Bool) (entry : W64) (now : Nat) : Head :=
  { packet := p, entry := entry, ts := ts, csc := csc, parent := parent, super := super, gang := gang, todo := [], since := now,
    aged := false, cursor := none, dropFirst := 0, fresh := true }

/-- A head is accepted: its tasks take consecutive sequence numbers and are live. -/
def acceptHead (s : State) (h0 : Head) : Head × State :=
  let dom := pkDom h0.packet
  let pts := traversal h0.packet
  let n0 := (domainAt s dom).next
  let todo := (pts.zip (range' 0 pts.length)).map (fun q => (q.1.1, q.1.2, n0 + BitVec.ofNat 32 q.2))
  let h : Head := { h0 with todo := todo, fresh := false }
  let lv : List Live := todo.map (fun q =>
    { task := taskOf h q.1 q.2.1 q.2.2, st := .waiting, readFrom := [], dropped := false })
  (h, updDomain { s with live := s.live ++ lv } dom (fun d => { d with next := d.next + BitVec.ofNat 32 pts.length }))

/-- A launch, accepted. -/
def accept (s : State) (p : BitVec 512) (ts : W64) (csc : Nat) (parent : Option Tid) (super gang : Bool)
    (entry : W64) : Head × State := acceptHead s (launchHead p ts csc parent super gang entry s.cycle)

/-- Whether a domain may take n more live tasks (R199). -/
def seqRoom (s : State) (dom n : Nat) : Bool :=
  decide ((s.live.filter (fun l => l.task.tid.dom = dom)).length + n ≤ 2 ^ 31)

/-- A launch with a timestamp below its domain's last committed task (R200). -/
def tsTooLow (s : State) (dom : Nat) (ts : W64) : Bool :=
  domTs s dom && (match (domainAt s dom).lastTs with
    | none => false
    | some l => ts.ult l)

/-- Whether a launch of a domain on a die is accepted at once: no more tasks would be live than may be, and none before it waits to be
accepted (R199). -/
def takesNow (s : State) (die : Nat) (p : BitVec 512) : Bool :=
  let fresh (l : List Head) : Bool := l.any (fun h => h.fresh && pkDom h.packet == pkDom p)
  seqRoom s (pkDom p) (pkNx p * pkNy p) && !fresh (getD (dispAt s die).spawn [] (pkDom p)) && !fresh (dispAt s die).due

/-- A launch joins its domain's spawn queue on a die (R215). One that would make too many tasks live is accepted once it is at the
head of its queue and tasks have committed (R199). -/
def enqueueSpawn (s : State) (die : Nat) (p : BitVec 512) (ts : W64) (csc : Nat) (parent : Option Tid)
    (super gang : Bool) (entry : W64) : State :=
  let h := launchHead p ts csc parent super gang entry s.cycle
  let r := if takesNow s die p then acceptHead s h else (h, s)
  joinSpawn r.2 die (pkDom p) r.1

/-- Launches held back at their sources enter their spawn queues as room comes (R215); fuel counts them. -/
def dueJoin (die : Nat) : Nat → State → State
  | 0, s => s
  | f + 1, s =>
    match (dispAt s die).due with
    | [] => s
    | h :: r => if spillFull s die then s else dueJoin die f (queueSpawn (updDisp s die (fun d => { d with due := r })) die (pkDom h.packet) h)

/-- A launch at the head of its spawn queue is accepted once its tasks may be live (R199). -/
def acceptDue (s : State) (die : Nat) : State :=
  (dispAt s die).spawn.foldl (fun s q =>
    match q.2 with
    | h :: r =>
      if h.fresh && seqRoom s q.1 (pkNx h.packet * pkNy h.packet) then
        let a := acceptHead s h
        updDisp a.2 die (fun d => { d with spawn := put d.spawn q.1 (a.1 :: r) })
      else s
    | [] => s) s

/-- A record spawned without an instruction: a template, a continuation, a group's CONT (R147, R325, R329). It is read in its turn at
port M (R41) and checked as R211 states; a refusal is recorded on its die. -/
def fireRecord (s0 : State) (a : Nat) (arg0 : W64) : State :=
  let die := a / 2 ^ 30 % 4
  let s := if sPlace s0 a = .bank then portTurn s0 false a else s0
  let no (c : Nat) : State := refuse s die 0 2 0 (faultAt c (BitVec.ofNat 64 a))
  if (dispAt s die).cancelled then s
  else if sPlace s a = .absent then no cADDR
  else if sPlace s a ≠ .bank ∨ a % 64 ≠ 0 then no cALIGN
  else if poisoned s a 64 then no cECC
  else
    let bs := (homeRead s a 64).1
    let p := packetOf (bs.take 16 ++ bytesOfNat 8 arg0.toNat ++ bs.drop 24)
    if pk p 7 0 ≠ 1 ∨ launchBad s p then no cCFGBAD
    else if tsTooLow s (pkDom p) (pkTs p) then no cTSORDER
    else
      match handlerEntry s die (pkHidx p) with
      | .error f => refuse s die 0 2 0 f
      | .ok e => enqueueSpawn (entryNote s die (pkHidx p)) die p (pkTs p) (pk p 24 22) none false (pk p 9 8 == 2) e

/-! ## Futures (R323-R326) -/

/-- The 8-byte word at an S-address, at its home. -/
def word8 (s : State) (a : Nat) : Nat := natOfBytes (homeRead s a 8).1

/-- A number of some bytes within a word, at its home. -/
def rdHome (s : State) (a n : Nat) : Nat := natOfBytes (homeRead s a n).1

/-- fire(c) of R325, its accesses in their turn at port M (R41). -/
def fire (s0 : State) (c : Nat) : State :=
  let s := portTurn s0 false c
  let owner := rdHome s (c + 4) 4
  if rdHome s (c + 14) 1 = 0 then fireRecord s owner (BitVec.ofNat 64 (rdHome s (c + 8) 6))
  else
    let k := owner + 48
    let s1 := portTurn s false k
    let pend := (rdHome s1 (k + 8) 2 + 65535) % 65536
    let s2 := homeWrite s1 (k + 8) (bytesOfNat 2 pend)
    if pend = 0 then fireRecord s2 owner (BitVec.ofNat 64 owner) else s2

/-- A waiter cell's 16 bytes (Table 11-3). -/
def cellBytes (next owner value kind : Nat) : List Byte :=
  bytesOfNat 4 next ++ bytesOfNat 4 owner ++ bytesOfNat 6 value ++ bytesOfNat 1 kind ++ [0]

/-- register(f, c, own, kind) of R325. -/
def futRegister (s0 : State) (f c own kind : Nat) : Except Nat State :=
  let s := portTurn (portTurn s0 false f) false c
  let w := word8 s f
  let st := w % 4
  let nw := bits w 15 2
  if st = 3 then .error cCFGBAD
  else if st = 2 then .ok (fire (homeWrite s c (cellBytes 0xFFFFFFFF own (bits w 63 16) kind)) c)
  else if st = 1 ∧ nw = 16383 then .error cCFGBAD
  else
    let nx := if st = 1 then bits w 47 16 else 0xFFFFFFFF
    let n := if st = 1 then nw + 1 else 1
    .ok (homeWrite (homeWrite s c (cellBytes nx own 0 kind)) f (bytesOfNat 8 (1 + 4 * n + 2 ^ 16 * c)))

/-- The waiters of a future, most recent registration first, fired with its value; fuel counts them. -/
def fireList : Nat → State → Nat → Nat → State
  | 0, s, _, _ => s
  | n + 1, s0, c, v =>
    if c = 0xFFFFFFFF then s0
    else
      let s := portTurn s0 false c
      let nx := rdHome s c 4
      fireList n (fire (homeWrite s (c + 8) (bytesOfNat 6 v)) c) nx v

/-- FUTRES(f, v) of R325. -/
def futResolve (s : State) (f v : Nat) : Except Nat State :=
  let w := word8 s f
  let st := w % 4
  if st = 3 then .error cCFGBAD
  else if st = 2 then .error cFUTDOUBLE
  else
    let v' := v % 2 ^ 48
    let s1 := homeWrite s f (bytesOfNat 8 (2 + 2 ^ 16 * v'))
    .ok (if st = 1 then fireList 16384 s1 (bits w 47 16) v' else s1)

/-! ## Groups (R328, R329) -/

/-- MEMB, ARRV, PH, CONT of a group object's 16 bytes; none where a reserved bit is set. -/
def groupOf (bs : List Byte) : Option (Nat × Nat × Bool × Nat) :=
  let w := natOfBytes bs
  if bits w 63 33 ≠ 0 ∨ bits w 127 96 ≠ 0 then none
  else some (bits w 15 0, bits w 31 16, bit w 32, bits w 95 64)

/-- A group object at its home. -/
def groupAt (s : State) (a : Nat) : Option (Nat × Nat × Bool × Nat) := groupOf (homeRead s a 16).1

/-- Writes MEMB, ARRV and PH of a group object. -/
def setGroup (s : State) (a memb arrv : Nat) (ph : Bool) : State :=
  homeWrite s a (bytesOfNat 8 (memb + 2 ^ 16 * arrv + (if ph then 2 ^ 32 else 0)))

/-- A flip when the arrivals reach the members, and CONT's spawn. -/
def groupFlip (s : State) (a memb arrv : Nat) (ph : Bool) (cont : Nat) : State :=
  if 0 < memb ∧ arrv = memb then
    let s1 := setGroup s a memb 0 (!ph)
    if cont = 0xFFFFFFFF then s1 else fireRecord s1 cont (BitVec.ofNat 64 a)
  else setGroup s a memb arrv ph

/-- GLEAVE's effect on the object of a member that arrived in a phase, or in none. -/
def groupLeave (s0 : State) (a : Nat) (arrived : Option Bool) : State :=
  let s := portTurn s0 false a
  match groupAt s a with
  | none => s
  | some (m, v, ph, c) =>
    if arrived = some ph then setGroup s a (m - 1) (v - 1) ph else groupFlip s a (m - 1) v ph c

/-! ## Barriers and rings (R139-R145) -/

/-- update(obj, arr, bytes) of R145: the phase that it read. -/
def barUpdate (s : State) (a arr : Nat) (bytes : Int) : Except Nat (Bool × State) :=
  let w := natOfBytes (homeRead s a 16).1
  let parr := bits w 15 0
  let earr := bits w 31 16
  let pb := sgn 32 (bits w 63 32) + bytes
  let rb := bits w 95 64
  let ph := bit w 96
  if parr < arr ∨ pb < -2147483648 ∨ 2147483647 < pb then .error cBAROVER
  else
    let flip : Bool := parr - arr == 0 && pb == 0
    let parr' := if flip then earr else parr - arr
    let pb' := if flip then rb else wrapI 32 pb
    let ph' := ph != flip
    .ok (ph, homeWrite s a (bytesOfNat 16 (parr' + 2 ^ 16 * earr + 2 ^ 32 * pb' + 2 ^ 64 * rb + (if ph' then 2 ^ 96 else 0) +
      2 ^ 97 * bits w 127 97)))

/-- A ring header (Table 5-7). -/
structure Ring where
  base : Nat
  lg : Nat
  size : Nat
  rsv : W32
  wp : W32
  rp : W32
deriving DecidableEq, Repr

/-- The ring header in 32 bytes; none where R140 rejects it. -/
def ringOf (bs : List Byte) : Option Ring :=
  let w := natOfBytes bs
  let f (lo : Nat) : W32 := BitVec.ofNat 32 (bits w (lo + 31) lo)
  let lg := bits w 39 32
  let sz := bits w 47 40
  let size := 16 * 2 ^ sz
  if 12 < lg ∨ 2 < sz ∨ bits w 63 48 ≠ 0 ∨ bits w 255 160 ≠ 0 ∨ bits w 31 0 % size ≠ 0 then none
  else some { base := bits w 31 0, lg := lg, size := size, rsv := f 64, wp := f 96, rp := f 128 }

/-- A ring header at its home. -/
def ringAt (s : State) (a : Nat) : Option Ring := ringOf (homeRead s a 32).1

/-- The S-address of the slot that a pointer names. Where the ring reaches past the end of S-space, its address goes on from 0: R140
states no fault there (DESIGN CHOICE, log 54). -/
def Ring.slot (r : Ring) (p : W32) : Nat := (r.base + r.size * (p.toNat % 2 ^ r.lg)) % 2 ^ 32

/-! ## Placement (R215-R219) -/

/-- Whether a core is fenced out or stopped (R405, R407). -/
def coreOff (s : State) (core : Nat) : Bool := (coreAt s core).stopped || fenced s (coreSite s core)

/-- The free contexts of a core on which a task may start (R193, R405). -/
def freeCtxs (s : State) (core : Nat) : List Nat :=
  if !bit (dev s 0x100608) 0 || coreOff s core then []
  else (range' (8 * core) 8).filter (fun c => (ctxOf s c).task.isNone && !(ctxOf s c).reserved)

/-- Ended, uncommitted tasks of a core (R204). -/
def endedOn (s : State) (core : Nat) : Nat := (s.ended.filter (fun e => coreOf e.cid = core)).length

/-- The pipeline that owns a cluster of a die (Table 7-9); 0 for none. -/
def pipeOf (s : State) (die cl : Nat) : Nat :=
  ((range' 1 7).find? (fun p => bit (dev s (0x100640 + 64 * die + 8 * p)) cl)).getD 0

/-- The cores of a pipeline, ascending, by their number on the die. -/
def pipeCores (s : State) (die p : Nat) : List Nat := (range' 0 128).filter (fun c => pipeOf s die (c / 16) = p)

/-- Stages of a pipeline. -/
def stages (s : State) (die p : Nat) : Nat := bits (dev s (0x100640 + 64 * die + 8 * p)) 10 8 + 1

/-- The stage of the i-th of n cores when k stages have equal shares, lower stages taking the remainder (R219). -/
def startStage (n k i : Nat) : Nat :=
  let q := n / k
  let r := n % k
  if i < r * (q + 1) then i / (q + 1) else r + (i - r * (q + 1)) / max q 1

/-- The stage of a core of a pipeline; 8 more while it still runs tasks of its earlier stage. -/
def stageOf (s : State) (die core p : Nat) : Nat :=
  match look (dispAt s die).stage core with
  | some v => v
  | none =>
    let cs := pipeCores s die p
    startStage cs.length (stages s die p) ((cs.filter (· < core)).length)

/-- Whether a queue may use a core of its die (R219). Queue numbers from 4,096 are spawn queues, which use any core. -/
def mayUse (s : State) (die queue core : Nat) : Bool :=
  if 4096 ≤ queue then true
  else
    match look (dispAt s die).queues queue with
    | none => false
    | some q =>
      let p := pipeOf s die (core / 16)
      if p ≠ q.pl then false
      else if p = 0 then true
      else
        let v := stageOf s die core p
        if 8 ≤ v then v - 8 == q.stg && (range' (8 * (128 * die + core)) 8).all (fun c => (ctxOf s c).task.isNone)
        else v == q.stg

/-- The effective priority of a head: one level more once it has waited 2^20 cycles (R216). -/
def effPrio (s : State) (h : Head) : Nat :=
  if h.aged || decide (h.since + 2 ^ 20 ≤ s.cycle) then min (pkPrio h.packet + 1) 63 else pkPrio h.packet

/-- The heads of a die: resident queues' and spawn queues', by queue number (R215, R216). -/
def headsOf (s : State) (die : Nat) : List (Nat × Head) :=
  let d := dispAt s die
  d.resident.filterMap (fun r => r.head.map (fun h => (r.queue, h))) ++
  d.spawn.filterMap (fun q => q.2.head?.map (fun h => (4096 + q.1, h)))

/-- Whether a cluster is closed to a task of an effective priority: one not above that of the gang it is closed for (R218). -/
def closedTo (s : State) (die cl e queue : Nat) : Bool :=
  match (dispAt s die).closed with
  | none => false
  | some (c, q) => decide (c = cl) && decide (q ≠ queue) && (headsOf s die).any (fun h => decide (h.1 = q) && decide (e ≤ effPrio s h.2))

/-- Whether a queue's task of an effective priority can go to a core of a die. -/
def usable (s : State) (die queue e core : Nat) : Bool :=
  !(freeCtxs s (128 * die + core)).isEmpty && mayUse s die queue core && !closedTo s die (core / 16) e queue

/-- The first index at which a number is greatest. -/
def argMax (xs : List Nat) : Nat :=
  let m := xs.foldl max 0
  (xs.findIdx? (fun x => decide (m ≤ x))).getD 0

/-- The cursor of a launch at its first dispatch: core 0 of the cluster with the most free contexts (R217). -/
def firstCursor (s : State) (die : Nat) : Nat :=
  16 * argMax ((range' 0 8).map (fun cl =>
    ((range' (128 * die + 16 * cl) 16).map (fun c => (freeCtxs s c).length)).foldl (· + ·) 0))

/-- The core of the next task of a head (R217). -/
def placeOne (s : State) (die queue e : Nat) (h : Head) : Option Nat :=
  let c0 := h.cursor.getD (firstCursor s die)
  ((range' 0 128).map (fun i => (c0 + i) % 128)).find? (usable s die queue e)

/-- The first run of n consecutive usable cores of one cluster (R218); in the cluster closed for the gang, if one is. -/
def placeRun (s : State) (die queue e n : Nat) : Option Nat :=
  let cls := match (dispAt s die).closed with
    | some (c, q) => if q = queue then [c] else range' 0 8
    | none => range' 0 8
  (cls.flatMap (fun cl => (range' 0 (17 - n)).map (fun i => 16 * cl + i))).find?
    (fun c => (range' c n).all (usable s die queue e))

/-- Whether a timestamp lies within its domain's window (R208, Table 7-4). -/
def inWindow (s : State) (dom : Nat) (ts : W64) : Bool :=
  !domTs s dom || (match domW s dom with
    | none => true
    | some w => decide (ts.toNat ≤ (frontVal s dom).toNat + w))

/-- eligible(h, q) of R216. -/
def eligible (s : State) (die queue : Nat) (h : Head) : Bool :=
  let dom := pkDom h.packet
  let e := effPrio s h
  let room (core : Nat) : Bool := !domTs s dom || decide (endedOn s (128 * die + core) < 16)
  domEn s dom && inWindow s dom h.ts && !h.todo.isEmpty &&
  (if h.gang then
    match placeRun s die queue e h.todo.length with
    | none => false
    | some c => (range' c h.todo.length).all room
   else
    match placeOne s die queue e h with
    | none => false
    | some c => room c)

/-- A task takes a context of a core: it is dispatched and starts (R191). Which free context it takes is a free
value (DESIGN CHOICE, log 18). A core moved to another stage that runs no task has finished those of its earlier one (R219). -/
def placeTask (s : State) (core : Nat) (t : Task) : State :=
  match freeCtxs s core with
  | [] => s
  | c0 :: r =>
    let (k, s1) := if r.isEmpty then (0, s) else draw s
    let cid := if r.isEmpty then c0 else (c0 :: r).getD (Config.choose k % (r.length + 1)) c0
    let t1 := { t with home := cid }
    let s2 := updCtx s1 cid (fun c => { c with task := some t1, starting := true, wait := none, got := none })
    let s3 := { s2 with live := s2.live.map (fun l => if l.task.tid = t.tid then { l with task := t1, st := .running cid } else l) }
    updDisp s3 (core / 128) (fun d => { d with
      stage := match look d.stage (core % 128) with
        | some v => if 8 ≤ v ∧ (range' (8 * core) 8).all (fun c => (ctxOf s c).task.isNone) then put d.stage (core % 128) (v - 8) else d.stage
        | none => d.stage })

/-- A head changes or, done, makes place for what follows it in its queue. -/
def setHead (s : State) (die queue : Nat) (h : Option Head) : State :=
  updDisp s die (fun d =>
    if 4096 ≤ queue then
      let l := getD d.spawn [] (queue - 4096)
      let l' := match h with
        | some x => x :: l.drop 1
        | none => match l.drop 1 with
          | [] => []
          | y :: r => { y with since := s.cycle } :: r
      { d with spawn := setD d.spawn [] (queue - 4096) l' }
    else
      { d with resident := d.resident.map (fun r =>
          if r.queue = queue then { r with head := h, emptySince := if h.isNone then s.cycle else r.emptySince } else r) })

/-- Dispatches the next task, or the gang, of a head (R216-R218). -/
def dispatchHead (s : State) (die queue : Nat) (h : Head) : State :=
  let e := effPrio s h
  if h.gang then
    match placeRun s die queue e h.todo.length with
    | none => s
    | some c =>
      let s1 := (h.todo.zip (range' c h.todo.length)).foldl
        (fun s q => placeTask s (128 * die + q.2) (taskOf h q.1.1 q.1.2.1 q.1.2.2)) s
      updDisp (setHead s1 die queue none) die (fun d =>
        { d with closed := match d.closed with
            | some (x, q) => if q = queue then none else some (x, q)
            | none => none })
  else
    match h.todo, placeOne s die queue e h with
    | q :: r, some c =>
      let s1 := placeTask s (128 * die + c) (taskOf h q.1 q.2.1 q.2.2)
      setHead s1 die queue (if r.isEmpty then none else some { h with todo := r, cursor := some ((c + 1) % 128) })
    | _, _ => s

/-- select(now) and the dispatch of what it chooses (R216). On a cancelled die only fault tasks and boot tasks start (R223). -/
def selectDie (s : State) (die : Nat) : State :=
  let d := dispAt s die
  if d.stopped then s
  else
    let cand := (headsOf s die).filter (fun q => eligible s die q.1 q.2 && (!d.cancelled || q.2.super))
    if cand.isEmpty then s
    else
      let lv := (cand.map (fun q => effPrio s q.2)).foldl max 0
      let at_ := cand.filter (fun q => effPrio s q.2 = lv)
      let last := getD d.last 4159 lv
      let dist (q : Nat) : Nat := (q + 4160 - (last + 1) % 4160) % 4160
      match at_ with
      | [] => s
      | q0 :: r =>
        let q := r.foldl (fun b x => if dist x.1 < dist b.1 then x else b) q0
        dispatchHead (updDisp s die (fun d => { d with last := put d.last lv q.1 })) die q.1 q.2

/-- The cluster path of a single spawn by a parent of a domain on a context (R215): the core on which the child starts. -/
def clusterPath (s : State) (cid pdom dom : Nat) (ts : W64) (prio : Nat) : Option Nat :=
  let core := coreOf cid
  let die := core / 128
  let cl := core / 16
  let cores := (range' 0 16).map (fun i => 16 * cl + (core % 16 + i) % 16)
  match cores.find? (fun c => !(freeCtxs s c).isEmpty && !closedTo s die (cl % 8) prio 4160) with
  | none => none
  | some c =>
    if dom ≠ pdom ∧ domTs s dom then none
    else if (headsOf s die).any (fun q => decide (prio < effPrio s q.2) && eligible s die q.1 q.2) then none
    else if domTs s dom ∧ (!inWindow s dom ts ∨ 16 ≤ endedOn s c) then none
    else if (dispAt s die).stopped then none
    else some c

/-- Whether a spawn by a parent of a domain on a context finds no room: neither by the cluster path nor in a spawn queue (R206, R215). -/
def spawnFull (s : State) (cid pdom : Nat) (p : BitVec 512) (ts : W64) (gang : Bool) : Bool :=
  spillFull s (cidDie cid) && (gang || pk p 9 8 != 0 || (clusterPath s cid pdom (pkDom p) ts (pkPrio p)).isNone)

/-- A spawn performed (R215, R320): by the cluster path where it serves a single one, else through the spawn queue of its
domain on the die. -/
def spawn (s : State) (cid pdom : Nat) (p : BitVec 512) (ts : W64) (csc : Nat) (parent : Option Tid) (gang : Bool)
    (entry : W64) : State :=
  let die := cidDie cid
  if (dispAt s die).cancelled then s
  else
    match (if pk p 9 8 = 0 ∧ !gang ∧ takesNow s die p then clusterPath s cid pdom (pkDom p) ts (pkPrio p) else none) with
    | none => enqueueSpawn s die p ts csc parent false gang entry
    | some core =>
      let r := accept s p ts csc parent false false entry
      match r.1.todo with
      | [] => r.2
      | q :: _ => placeTask r.2 core (taskOf r.1 q.1 q.2.1 q.2.2)

/-! ## Queues (R122, R124, R212) -/

/-- What the head slot of a queue holds. -/
inductive Slot where
  | empty
  | disabled
  | bad (f : FaultInfo) (ridx : Nat)
  | packet (p : BitVec 512) (valid : Nat) (ridx : Nat)

/-- Translates an agent's access to a queue header or slot: in a page with T = 00, in S mode (R122, R124; DEDUCED, log 19). -/
def queueXl (s : State) (u : Agt) (va : W64) (n : Nat) : Except FaultInfo Nat :=
  match agtXlOf s u va .rw n 1 true with
  | .error f => .error f
  | .ok x => if x.t ≠ 0 then .error (faultAt cPROT va) else if poisoned s x.loc n then .error (faultAt cECC va) else .ok x.loc

/-- The second line of a queue's header, where it can be read. -/
def hdrLine (s : State) (u : Agt) (hdr : W64) : Except FaultInfo (Nat × Nat) :=
  (queueXl s u (hdr + 64) 64).map (fun l => (l, natOfBytes (homeRead s l 64).1))

/-- The address of a slot of a queue by its header's second line, whose LOG2S is in range. -/
def slotVa (h idx : Nat) : Option W64 :=
  let lg := bits h 132 128
  if lg < 4 ∨ 16 < lg then none else some (BitVec.ofNat 64 (bits h 127 64 + 64 * (idx % 2 ^ lg)))

/-- The first address of a queue's header, or of it and the slot of an index, by default the head's, whose translation an agent has
still to ask for (R32). -/
def hdrLacks (s : State) (u : Agt) (hdr : W64) : Option W64 := [hdr, hdr + 64].find? (agtLacks s u)
def queueLacks (s : State) (u : Agt) (hdr : W64) (idx : Option Nat) : Option W64 :=
  let slot : Option W64 := match hdrLine s u hdr with
    | .error _ => none
    | .ok (_, h) => slotVa h (idx.getD (bits h 63 0))
  ([hdr, hdr + 64] ++ slot.toList).find? (agtLacks s u)

/-- An agent has used its translations of a queue: an engine's AGT holds them on, a Dispatcher holds none (R29). -/
def queueUsed (s : State) (u : Agt) (hdr : W64) : State :=
  let slot : List W64 := match hdrLine s u hdr with
    | .error _ => []
    | .ok (_, h) => (slotVa h (bits h 63 0)).toList
  unitDone (([hdr, hdr + 64] ++ slot).foldl (fun s va => agtTouch s u false va 1) s) u

/-- The head slot of a queue, and where its slot and its read index lie. Where the header's second line cannot be read, the refusal
names read index 0: the spec names none (DESIGN CHOICE, log 19). -/
def slotOf (s : State) (u : Agt) (hdr : W64) : Slot × Nat × Nat :=
  match hdrLine s u hdr with
  | .error f => (.bad f 0, 0, 0)
  | .ok (l, h) =>
    let ridx := bits h 63 0
    match slotVa h ridx with
    | none => (.disabled, 0, 0)
    | some va =>
      match queueXl s u va 64 with
      | .error f => (.bad f ridx, 0, 0)
      | .ok sl =>
        let bs := (homeRead s sl 64).1
        let v := (bs.headD 0).toNat
        (if v = 0 then .empty else .packet (packetOf bs) v ridx, sl, l)

/-- Takes the head slot: its valid byte is cleared and the read index advances (R124). -/
def takeSlot (s : State) (slot hdr2 ridx : Nat) : State :=
  homeWrite (homeWrite s slot [0]) hdr2 (bytesOfNat 8 (ridx + 1))

/-- The first address that a Dispatcher lacks for the take of a queue's head: of the queue, then of the handler's entry that its
packet names. -/
def takeLacks (s : State) (u : Agt) (hdr : W64) : Option W64 :=
  match queueLacks s u hdr none with
  | some va => some va
  | none =>
    match slotOf s u hdr with
    | (.packet p 1 _, _, _) => if !launchBad s p && agtLacks s u (entryVa s (pkHidx p)) then some (entryVa s (pkHidx p)) else none
    | _ => none

/-- DISPATCHER_TAKE_PACKET of a queue served on a die: its next packet becomes its head, is refused, or the queue is
served no more (R211, R212). What the Dispatcher has still to translate, it asks its die's walker for (R31). -/
def takePacket (s0 : State) (die queue : Nat) (q : TQueue) : State :=
  let u := dispAgt die queue
  let s := queueUsed s0 u q.hdr
  let drop (s : State) : State := updDisp s die (fun d => { d with
    queues := del d.queues queue, resident := d.resident.filter (fun r => r.queue ≠ queue) })
  match q.spilled with
  | some h =>
    setHead (updDisp s0 die (fun d => { d with queues := put d.queues queue { q with spilled := none } })) die queue
      (some { h with since := s0.cycle - h.since })
  | none =>
    match takeLacks s0 u q.hdr with
    | some va => agtAsk s0 u va
    | none =>
    match slotOf s0 u q.hdr with
    | (.empty, _, _) => s0
    | (.disabled, _, _) => drop s
    | (.bad f ridx, _, _) => refuse (drop s) die queue 0 ridx f
    | (.packet p v ridx, sl, hd) =>
      let s1 := takeSlot s sl hd ridx
      let no (f : FaultInfo) : State := refuse s1 die queue 0 ridx f
      if v ≠ 1 ∨ launchBad s p then no (faultAt cCFGBAD 0)
      else if tsTooLow s (pkDom p) (pkTs p) then no (faultAt cTSORDER 0)
      else if !seqRoom s (pkDom p) (pkNx p * pkNy p) then s0
      else
        match entryBy s0 u (pkHidx p) with
        | .error f => no f
        | .ok e =>
          let r := accept s1 p (pkTs p) (pk p 24 22) none false (pk p 9 8 == 2) e
          setHead r.2 die queue (some r.1)

/-! ## How a task ends (R204, R321, R322, R400) -/

/-- The holds of a context's output channels, with their endpoints (R291). -/
def holdsOf (c : Ctx) : List (Nat × List Token) :=
  c.ports.filterMap (fun p => match p.2.bind with
    | .channel _ k => if p.2.hold.isEmpty then none else some (k, p.2.hold)
    | _ => none)

/-- A context's task leaves its group as GLEAVE does (R196, R329). -/
def leaveGroup (s : State) (cid : Nat) : State :=
  match (ctxOf s cid).group with
  | some (a, ar) => groupLeave s a ar
  | none => s

/-- A timestamp task is dropped: it commits as a task that wrote nothing (R322, R400). -/
def dropTask (s : State) (t : Tid) : State :=
  match s.live.find? (fun l => l.task.tid = t) with
  | none => s
  | some l =>
    let s1 := match l.st with
      | .running c => leaveGroup s c
      | _ => s
    updDomain (abortTask s1 t false) t.dom (fun d => { d with lastTs := some t.ts })

/-- A free task leaves its context: its group first (R196), then the context is free. -/
def leaveFree (s : State) (cid : Nat) (t : Task) : State :=
  let s1 := leaveGroup s cid
  let s2 := freeHome (freeCtx s1 cid) t cid
  { s2 with live := s2.live.filter (fun l => l.task.tid ≠ t.tid) }

/-- TEND (R321): a free task publishes and leaves; a timestamp task keeps what it holds until its commit. -/
def endTask (s : State) (cid : Nat) (csc : Nat) : State :=
  match (ctxOf s cid).task with
  | none => s
  | some t =>
    let s1 := drainAll s cid
    if domTs s t.tid.dom then
      let c := ctxOf s1 cid
      let e : Ended := { tid := t.tid, cid := cid, csc := csc, sb := c.sb, holds := holdsOf c,
                         point := none
                         held := c.held ++ (match c.group with
                           | some (a, ar) => [.gleave a ar]
                           | none => []) }
      let s2 := freeHome (freeCtx s1 cid) t cid
      { s2 with ended := s2.ended ++ [e],
                live := s2.live.map (fun l => if l.task.tid = t.tid then { l with st := .ended } else l) }
    else leaveFree (publishCtx s1 cid) cid t

/-- TABORT (R322): a free task's stores not yet published are discarded; a timestamp task is marked dropped, and dropped
at the frontier. -/
def abortSelf (s : State) (cid : Nat) : State :=
  match (ctxOf s cid).task with
  | none => s
  | some t =>
    if domTs s t.tid.dom then
      if frontier s t.tid.dom = some t.tid then dropTask s t.tid
      else updCtx { s with live := s.live.map (fun l => if l.task.tid = t.tid then { l with dropped := true } else l) } cid
        (fun c => { c with wait := some .dropped })
    else leaveFree s cid t

/-! ## Containment and the record of a context fault (R188, R397, R400) -/

/-- The record of a context's fault, its exposure apart (Tables 13-3, 13-4). -/
def ctxRec (s : State) (cid : Nat) (t : Task) (x : Pend) : Rec :=
  { recOf x.f.cause 0 with
    flags := (if x.f.deferred then 1 else 0) + (if x.f.pos.isSome then 2 else 0) + (if x.f.post then 0x10 else 0) +
      (if t.exposed then 0x20 else 0)
    addr := x.f.addr, pc := x.pc, ts := t.tid.ts, tseq := t.tid.seq.toNat, dom := t.tid.dom, prio := t.prio,
    hidx := t.hidx, who := ctxId s cid, port := x.f.port, lane := x.f.lane, pos := x.f.pos,
    detail := x.ir.flatMap (fun w => bytesOfNat 4 w.toNat) }

/-- Fault containment kills a context's task: a timestamp task is dropped; a free task's stores that have not left are
discarded, and of those that have left and are not acknowledged any subset is published (R188; DEDUCED, log 14). -/
def killTask (s : State) (cid : Nat) : State :=
  match (ctxOf s cid).task with
  | none => s
  | some t => if domTs s t.tid.dom then dropTask s t.tid else leaveFree s cid t

end Sys2Proof.Machine
end

