-- ==== Sys2Proof/Machine/Packets.lean ====
section
/-! DEFINITION. Copy packets, what a transfer moves, and the record of a copy (spec/05 R127, R130, R133, R149). -/

namespace Sys2Proof.Machine
open Sys2Proof

/-! ## Packets (Tables 5-4 to 5-6) -/

def cpKind (p : BitVec 512) : Nat := pk p 9 8
def cpSsp (p : BitVec 512) : Bool := bit p.toNat 10
def cpDsp (p : BitVec 512) : Bool := bit p.toNat 11
def cpNoval (p : BitVec 512) : Bool := bit p.toNat 12
def cpCarr (p : BitVec 512) : Bool := bit p.toNat 13
def cpFence (p : BitVec 512) : Bool := bit p.toNat 14
def cpFmt (p : BitVec 512) : Nat := pk p 19 16
def cpFilt (p : BitVec 512) : Nat := pk p 23 20
def cpCkind (p : BitVec 512) : Nat := pk p 25 24
def cpCsc (p : BitVec 512) : Nat := pk p 28 26
def cpTks (p : BitVec 512) : Bool := bit p.toNat 29
def cpNosig (p : BitVec 512) : Bool := bit p.toNat 30
def cpCtgt (p : BitVec 512) : Nat := pk p 63 32
def cpI0 (p : BitVec 512) : Nat := pk p 479 448
def cpI1 (p : BitVec 512) : Nat := pk p 511 480

/-- Formats of four bits (R85). -/
def fourBit (f : Nat) : Bool := [5, 6, 8, 9, 0xA].contains f
/-- Formats to which R87 applies. -/
def packed (f : Nat) : Bool := fourBit f || f == 0xB

/-- The elements of a dense copy. -/
def cpCount (p : BitVec 512) : Nat := pk p 223 192 * pk p 239 224 * pk p 255 240

/-! ## What a transfer moves (R130-R133) -/

/-- The layout of a phase: sizes, base and strides of each side in bytes, the element of the source row at which it begins,
formats and filter operation. -/
structure Lay where
  n0 : Nat
  n1 : Nat
  n2 : Nat
  s0 : Nat
  s1 : Int
  s2 : Int
  d0 : Nat
  d1 : Int
  d2 : Int
  off : Nat
  sf : Nat
  df : Nat
  op : Nat
deriving DecidableEq, Repr

/-- A single row. -/
def layRow (n src dst off sf df op : Nat) : Lay :=
  { n0 := n, n1 := 1, n2 := 1, s0 := src, s1 := 0, s2 := 0, d0 := dst, d1 := 0, d2 := 0, off := off, sf := sf, df := df, op := op }

/-- The layout of a copy's current phase. Pos and crd entries pass as 32-bit words, unfiltered. -/
def layOf (c : Copy) : Lay :=
  let p := c.packet
  let op := bits c.filt 3 0
  let df := if op = 1 then bits c.filt 11 8 else cpFmt p
  let nnz := c.prev - c.p0
  match cpKind p with
  | 0 => { n0 := pk p 223 192, n1 := pk p 239 224, n2 := pk p 255 240, s0 := pk p 127 64, d0 := pk p 191 128,
           s1 := sgn 48 (pk p 303 256), d1 := sgn 48 (pk p 351 304), s2 := sgn 48 (pk p 399 352),
           d2 := sgn 48 (pk p 447 400), off := 0, sf := cpFmt p, df := df, op := op }
  | 1 =>
    match c.phase with
    | .pos => layRow (cpI1 p - cpI0 p + 1) (pk p 127 64) (pk p 191 128) (cpI0 p) 0xC 0xC 0
    | .crd => layRow nnz (pk p 255 192) (pk p 319 256) c.p0 0xC 0xC 0
    | .val => layRow (if cpNoval p then 0 else nnz) (pk p 383 320) (pk p 447 384) c.p0 (cpFmt p) df op
  | _ => layRow 0 0 0 0 0 0 0

/-- The elements of a layout. -/
def Lay.total (l : Lay) : Nat := l.n0 * l.n1 * l.n2

/-- Indices of an element. -/
def Lay.index (l : Lay) (e : Nat) : Nat × Nat × Nat := (e % l.n0, e / l.n0 % l.n1, e / l.n0 / l.n1)

/-! ## Records of copies (R149, R152) -/

/-- A counter as a record holds it. -/
def ctrBytes (i : Nat × Nat × Nat) : List Byte := bytesOfNat 4 i.1 ++ bytesOfNat 2 i.2.1 ++ bytesOfNat 2 i.2.2

/-- The record of a copy's fault (Tables 13-3, 13-4): read and write counters as element indices. -/
def copyRec (eng : Nat) (c : Copy) (f : FaultInfo) (wside pend : Bool) (rd wr : Nat × Nat × Nat) : Rec :=
  let (q, w) := c.queue.getD (0, 0)
  { recOf f.cause 1 with
    flags := (if f.pos.isSome then 2 else 0) + (if pend then 4 else 0) + (if wside then 8 else 0)
    addr := f.addr
    ts := (c.ident.map (·.tid.ts)).getD 0
    tseq := (c.ident.map (·.tid.seq.toNat)).getD 0
    dom := (c.ident.map (·.tid.dom)).getD 0
    prio := (c.ident.map (·.prio)).getD 0
    hidx := (c.ident.map (·.hidx)).getD 0
    who := eng, port := if pend ∨ f.cause = 0 then none else some (if wside then 1 else 0), pos := f.pos
    detail := bytesOfNat 2 q ++ bytesOfNat 2 0 ++ bytesOfNat 8 w ++ bytesOfNat 8 c.bytes ++ bytesOfNat 4 c.segs.length ++
      ctrBytes rd ++ ctrBytes wr ++ bytesOfNat 1 (match c.phase with
        | .pos => 0
        | .crd => 1
        | .val => 2)
    link := .copy eng c.id }

/-- The element from which the values that a copy holds count. -/
def gotFrom (l : Lay) (e : Nat) : Nat := if l.op = 3 then e / 64 * 64 else e

/-- A copy whose AGTs both stand at its first element not written: what was read ahead has no effect, and is read again (R148, R150). -/
def rewind (c : Copy) : Copy := { c with got := [], next := gotFrom (layOf c) c.wnext, prev := c.prevW }

/-- A copy saved at a job switch: the record of its place, with no cause (R152). -/
def savedRec (eng : Nat) (c : Copy) : Rec :=
  let l := layOf c
  copyRec eng c (faultAt 0 0) false c.pend (l.index c.next) (l.index c.wnext)

/-! ## Writes on their way (R132, R137) -/

/-- Changes one copy of an engine. -/
def updCopy (s : State) (eng id : Nat) (f : Copy → Copy) : State :=
  updEngine s eng (fun g => { g with copies := g.copies.map (fun c => if c.id = id then f c else c) })

/-- A copy as the author of what it writes. -/
def Copy.author (c : Copy) : Author := { super := c.super, ident := c.ident }

/-- Whether a write request waits for a full buffer (R49). -/
def wrHeld (s : State) (w : CopyWr) : Bool := w.runs.any (fun r => writeHeld s r.1 r.2.1.length)

/-- A run of bytes as its home takes it: in lines, but whole in S-space and in a peer's memory (R39, R420). -/
def homeRuns (r : Nat × List Byte × Bool) : List (Nat × List Byte × Bool) :=
  if r.1 < 2 ^ 32 ∨ peerBase ≤ r.1 then [r]
  else
    let n := 64 - r.1 % 64
    if r.2.1.length ≤ n then [r] else [(r.1, r.2.1.take n, r.2.2), (r.1 + n, r.2.1.drop n, r.2.2)]

/-- A write request of a copy reaches its home, whole (R39), and is acknowledged. -/
def performWr (s : State) (eng : Nat) (c : Copy) (w : CopyWr) : State :=
  updCopy ((w.runs.flatMap homeRuns).foldl (fun s r =>
    fromDie (eng / 16) r.1 (fun s => unitWrite s false c.author r.1 r.2.1 r.2.2) s) s) eng c.id (fun c => { c with wr := c.wr.erase w })

/-- The writes of a copy on their way end, but for those that wait for a full buffer. -/
def drainWr (s : State) (eng : Nat) (c : Copy) : State :=
  c.wr.foldl (fun s w => if wrHeld s w then s else performWr s eng c w) s

end Sys2Proof.Machine
end

