-- ==== Sys2Proof/Machine/Device.lean ====
section
/-! DEFINITION. Device registers: what reads return, what writes do, and the machinery that they drive: translation
invalidation, queue tables, fault-record commands, pre-emption, fencing, job save and restore, boot and power (spec/00 R6,
spec/01 R16, R22, R34, spec/13, spec/14). -/

namespace Sys2Proof.Machine
open Sys2Proof

/-! ## Translation caches (R22, R34) -/

/-- Walks begin anew, and answers that no access has used yet are void, so that no later access goes through an entry read
before an invalidation (R34). -/
def Walker.again (w : Walker) : Walker := { w with walks := w.walks.map (fun x => { x with pos := none }) }
def voidAnswers (s : State) : State :=
  { s with cx := { s.cx with walked := [] }, others := s.others.map (fun c => (c.1, { c.2 with walked := [] })), unitBad := []
           engines := s.engines.map (fun g => (g.1, { g.2 with badPage := none })) }

/-- Drops every held translation of the package. -/
def invalAll (s0 : State) : State :=
  let s := voidAnswers s0
  { s with cores := s.cores.map (fun c => (c.1, { c.2 with tlb := [] })),
           clusters := s.clusters.map (fun c => (c.1, { c.2 with tlb := [] })),
           walkers := s.walkers.map (fun w => (w.1, { w.2.again with cache := [], roots := [] })), agtTlbs := [] }

/-- Drops the held translations of a range of n bytes from a VA, with the pointers above them (R34). -/
def invalRange (s0 : State) (lo n : Nat) : State :=
  let s := voidAnswers s0
  let hits (page size : Nat) : Bool := decide (page < lo + n) && decide (lo < page + size)
  let f (l : List TlbEnt) : List TlbEnt := l.filter (fun e => !hits e.page (2 ^ e.bits))
  let g (l : List PwEnt) : List PwEnt :=
    l.filter (fun e => !hits (e.key * 2 ^ lvlBits (e.level - 1)) (2 ^ lvlBits (e.level - 1)))
  { s with cores := s.cores.map (fun c => (c.1, { c.2 with tlb := f c.2.tlb })),
           clusters := s.clusters.map (fun c => (c.1, { c.2 with tlb := f c.2.tlb })),
           walkers := s.walkers.map (fun w => (w.1, { w.2.again with cache := g w.2.cache, roots := g w.2.roots })),
           agtTlbs := (s.agtTlbs.map (fun t => (t.1, f t.2))).filter (fun t => !t.2.isEmpty) }

/-! ## Queue tables (R121, R212) -/

/-- A VA's bits [56:6] as an address. -/
def hdrVa (v : Nat) : W64 := (BitVec.ofNat 57 (64 * v)).signExtend 64

/-- The engine's queues by the table in HBM, which is read at its home (R56): the 16 lowest-numbered enabled entries that name it (R121). HDR holds VA bits [56:6], so the
address it names is canonical. -/
def readCqtab (s : State) : State :=
  let base := bits (dev s 0x100300) 38 13 * 2 ^ 13
  let ents := (range' 0 1024).map (fun n => (n, rdHome s (locHbm (base + 8 * n)) 8))
  (range' 0 64).foldl (fun s e =>
    let mine := (ents.filter (fun x => bit x.2 0 && decide (bits x.2 63 58 = 0) && decide (bits x.2 6 1 = e))).take 16
    if mine.isEmpty && (look s.engines e).isNone then s
    else updEngine s e (fun g => { g with queues := mine.map (fun x => (x.1, hdrVa (bits x.2 57 7), none)), stopped := false })) s

/-- The Dispatchers read the task queue table; a queue that keeps its entry keeps its spilled head (R212). -/
def readTqtab (s : State) : State :=
  let base := bits (dev s 0x100600) 38 15 * 2 ^ 15
  (range' 0 4).foldl (fun s die =>
    let ents := (range' 0 4096).filterMap (fun n =>
      let v := rdHome s (locHbm (base + 8 * n)) 8
      if bit v 0 && decide (bits v 2 1 = die) then
        some (n, ({ hdr := hdrVa (bits v 63 13), gto := bits v 6 3, pl := bits v 9 7, stg := bits v 12 10,
                    spilled := (look (dispAt s die).queues n).bind (·.spilled) } : TQueue))
      else none)
    updDisp s die (fun d => { d with queues := ents, cancelled := false })) s

/-! ## Fault-record commands (R401, R404) -/

/-- Whether a record of a die is BUSY, and its KIND. -/
def recState (s : State) (die n : Nat) : Option Nat :=
  (frbBase s die).bind (fun b =>
    if bit (rdByte s (b + 128 * n + 3)).toNat 7 then some (rdByte s (b + 128 * n + 2)).toNat else none)

/-- Clears BUSY of a record by its S-address. -/
def clearBusy (s : State) (a : Nat) : State :=
  if sPlace s a = .bank then homeWrite s (a + 3) [BitVec.ofNat 8 ((rdByte s (a + 3)).toNat % 128)] else s

/-- The engines of a die. -/
def dieEngines (die : Nat) : List Nat := range' (16 * die) 16

/-- Changes the copy that a record of a die belongs to. -/
def updRecCopy (s : State) (die n : Nat) (f : Copy → Copy) : State :=
  (dieEngines die).foldl (fun s e =>
    if (engineAt s e).copies.any (fun c => c.faulted = some (some n)) then
      updEngine s e (fun g => { g with copies := g.copies.map (fun c => if c.faulted = some (some n) then f c else c) })
    else s) s

/-- RESUME of KIND 1 and 2 (R404): the copy goes on from its counters, or retries its completion; a faulted AGT goes on. -/
def frResume (s : State) (die n : Nat) : State :=
  match recState s die n with
  | some 1 => updRecCopy s die n (fun c => { c with faulted := none, pend := false, badPage := none })
  | some 2 =>
    let es := s.fab.elems.map (fun e =>
      (e.1, if e.2.faulted = some (some n) ∧ e.2.agtFault ∧ e.1 / (4 * 2304) = die
            then { e.2 with faulted := none, agtFault := false, badPage := none } else e.2))
    { s with fab := { s.fab with elems := es } }
  | _ => s

/-- ABANDON of KIND 1 (R151). -/
def frAbandon (s : State) (die n : Nat) : State :=
  if recState s die n = some 1 then updRecCopy s die n (fun c => { c with faulted := none, abandoned := true }) else s

/-- RELEASE (R401). -/
def frRelease (s : State) (die n : Nat) : State :=
  match recState s die n, frbBase s die with
  | some _, some b => clearBusy s (b + 128 * n)
  | _, _ => s

/-! ## Pre-emption (R405, R176) -/

/-- Whether a context has its task stopped for good: its wait is no wait of an instruction that is executed again. -/
def keepWait (w : Option Wait) : Option Wait :=
  match w with
  | some (.record p) => some (.record p)
  | some (.deferred p) => some (.deferred p)
  | some .dropped => some .dropped
  | _ => none

/-- The endpoints that one holder's ports are bound to become another's: a saved task holds them by the context of its area, as
4096 + that context (R405). -/
def rebind (s : State) (a b : Nat) : State :=
  { s with fab := { s.fab with endps := s.fab.endps.map (fun e => (e.1, match e.2.bound with
    | some x => if x.1 = a then { e.2 with bound := some (b, x.2) } else e.2
    | none => e.2)) } }

/-- A task leaves its context whole; its area stays its own (R405). -/
def preempt (s : State) (cid : Nat) : State :=
  match (ctxOf s cid).task with
  | none => s
  | some t =>
    let s1 := drainAll s cid
    let c := ctxOf s1 cid
    if isSpec s1 c then abortTask s1 t.tid true
    else
      let saved : Ctx := { c with wait := keepWait c.wait, ports := c.ports.map (fun p => (p.1, match p.2.bind with
        | .channel _ _ => p.2
        | _ => { p.2 with ahead := [] })) }
      let s2 := updCtx (rebind s1 cid (4096 + t.home)) cid (fun c => { emptied c with posted := [], cfg := [] })
      let s3 := updCtx s2 t.home (fun c => { c with reserved := true })
      let ns := s3.nodes.map (fun n => (n.1, { n.2 with waiters := n.2.waiters.filter (fun w => w.2 ≠ cid) }))
      let s4 := { s3 with nodes := ns
                          live := s3.live.map (fun l => if l.task.tid = t.tid then { l with st := .waiting } else l) }
      updDisp s4 (cidDie cid) (fun d => { d with saved := d.saved ++ [saved] })

/-- A saved task goes on on a context: its stores in the new core's buffer, that core's L1 dropped (R176); its current frame is filled
before its next instruction (R243). -/
def resumeTask (s : State) (cid : Nat) (c : Ctx) : State :=
  match c.task with
  | none => s
  | some t =>
    let r := (ctxOf s cid).reserved
    let s1 := setCtx (l1Drop (rebind s (4096 + t.home) cid) (coreOf cid)) cid { c with
      cfg := (ctxOf s cid).cfg ++ c.cfg, walked := [], refill := .due, reserved := if t.home = cid then false else r }
    { s1 with live := s1.live.map (fun l => if l.task.tid = t.tid then { l with st := .running cid } else l) }

/-- The contexts on which a saved task can go on: the free ones of the package, and its own while no task runs there (R405). -/
def resumeOn (s : State) (c : Ctx) : List Nat :=
  let own := match c.task with
    | some t => if (ctxOf s t.home).task.isNone && !coreOff s (coreOf t.home) then [t.home] else []
    | none => []
  own ++ (range' 0 512).flatMap (freeCtxs s)

/-- The journal chunks of a task that goes on on another die are counted there (DESIGN CHOICE, log 18). -/
def moveChunks (s : State) (a b n : Nat) : State :=
  let add (m : FMap Nat) (d : Nat) (f : Nat → Nat) : FMap Nat := setD m 0 d (f (getD m 0 d))
  if a = b then s else { s with chunksUsed := add (add s.chunksUsed a (· - n)) b (· + n) }

/-- Resumes the saved tasks of a die for which a context is free, each on any of them (log 18). -/
def resumeSaved (s : State) (die : Nat) : State :=
  (dispAt s die).saved.foldl (fun s c =>
    match resumeOn s c with
    | [] => s
    | l =>
      let (k, s1) := draw s
      let cid := l.getD (Config.choose k % l.length) 0
      updDisp (resumeTask (moveChunks s1 die (cidDie cid) c.chunks) cid c) die (fun d => { d with saved := d.saved.erase c })) s

/-! ## Fencing (R405, R407, R408) -/

/-- A graph's contexts and cells stop firing (R390). -/
def freezeGraph (s : State) (base : Nat) : State :=
  match look s.fab.graphs base with
  | none => s
  | some _ =>
    let gs := s.fab.graphs.map (fun g => (g.1, if g.1 = base then { g.2 with frozen := true } else g.2))
    let es := s.fab.elems.map (fun e =>
      (e.1, if (graphAt s (e.1 / 4)).map (·.1) = some base then { e.2 with frozen := true } else e.2))
    { s with fab := { s.fab with graphs := gs, elems := es } }

/-- KIND 4's record of a task that is not run again (R408), for the fault task. -/
def reportLost (s : State) (t : Task) (cid : Nat) : State :=
  asyncRec s (cidDie cid) { recOf cECC 4 with
    flags := 0x20, ts := t.tid.ts, tseq := t.tid.seq.toNat, dom := t.tid.dom, prio := t.prio, hidx := t.hidx,
    who := ctxId s cid, detail := bytesOfNat 64 t.packet.toNat }

/-- A task of a fenced core (R408). A free task of a cancelled job is not run again: no task of it starts (R223). -/
def loseTask (s : State) (cid : Nat) : State :=
  let c := ctxOf s cid
  match c.task with
  | none => s
  | some t =>
    let ts := domTs s t.tid.dom
    if ts ∧ !c.committing then abortTask s t.tid true
    else if !ts ∧ !t.exposed ∧ (dispAt s (cidDie cid)).cancelled ∧ !t.super then leaveFree s cid t
    else if !ts ∧ !t.exposed then
      let s1 := freeHome (freeCtx s cid) t cid
      let s2 := { s1 with live := s1.live.map (fun l => if l.task.tid = t.tid then { l with st := .waiting } else l) }
      joinSpawn s2 (cidDie cid) t.tid.dom (headOf t s.cycle t.issued)
    else killTask (reportLost s t cid) cid

/-- An ended task whose store buffer is on a fenced core: aborted and dispatched again, or, with its commit in progress, reported, what it
still holds lost (R408). -/
def loseEnded (s : State) (t : Tid) : State :=
  match s.ended.find? (fun e => e.tid = t), s.live.find? (fun l => l.task.tid = t) with
  | some e, some l =>
    if (domainAt s t.dom).commit = some t then
      let s1 := reportLost s l.task e.cid
      updDomain (dropRecords { s1 with
          ended := s1.ended.filter (fun x => x.tid ≠ t), live := s1.live.filter (fun x => x.task.tid ≠ t) } t) t.dom
        (fun d => { d with lastTs := some t.ts, commit := none })
    else abortTask s t true
  | _, _ => s

/-- The tasks of a fenced core, running and ended. -/
def loseCore (s : State) (core : Nat) : State :=
  let s1 := (range' (8 * core) 8).foldl loseTask s
  ((s1.ended.filter (fun e => coreOf e.cid = core)).map (·.tid)).foldl loseEnded s1

/-- FENCE of a site: no dispatch, placement or configuration uses it (R407); a graph that holds it is frozen, to be placed again (R409). -/
def fenceSite (s : State) (die site : Nat) : State :=
  let key := 2304 * die + site
  let s1 := { s with fmap := setD s.fmap false key true }
  let s2 := match graphAt s1 key with
    | some (b, _) =>
      let s2 := freezeGraph s1 b
      { s2 with fab := { s2.fab with graphs := s2.fab.graphs.map (fun g => (g.1, if g.1 = b then { g.2 with lost := true } else g.2)) } }
    | none => s1
  if siteKind s2 die site = 0xE then
    loseCore s2 (128 * die + siteRank s2 die 0xE site)
  else s2

/-- UNFENCE: it ends a DRAIN's stop as well. -/
def unfenceSite (s : State) (die site : Nat) : State :=
  let s1 := { s with fmap := setD s.fmap false (2304 * die + site) false }
  if siteKind s die site = 0xE then updCore s1 (128 * die + siteRank s die 0xE site) (fun c => { c with stopped := false }) else s1

/-- DRAIN of a TC site: its tasks are saved and nothing is dispatched to it (R405). -/
def drainSite (s : State) (die site : Nat) : State :=
  if siteKind s die site = 0xE then
    let core := 128 * die + siteRank s die 0xE site
    let s1 := (range' (8 * core) 8).foldl preempt (updCore s core (fun c => { c with stopped := true }))
    ((s1.ended.filter (fun e => coreOf e.cid = core)).map (·.tid)).foldl (fun s t => 
      if frontier s t.dom = some t then s else abortTask s t true) s1
  else s

/-! ## Job switch (R406) -/

/-- The job's device registers: those below TVEC (DEDUCED, log 20). -/
def jobRegs (s : State) : FMap W64 := s.dev.filter (fun r => decide (r.1 < 0x100800))

/-- What a job switch and a mirror point take down. -/
def snapOf (s : State) (mem : List Host.Cell) : Snap :=
  { disp := s.disp, engines := s.engines, domains := s.domains, live := s.live, ended := s.ended, dir := s.dir, chunks := s.chunksUsed,
    homes := (((s.cur, s.cx) :: s.others).filter (·.2.reserved)).map (·.1), fab := s.fab, dev := jobRegs s, mem := mem, tags := [],
    poison := [], linePoison := [] }

/-- The engines with their copies as they resume: at the first element not written (R150, R411). -/
def rewound (s : State) : FMap Engine := s.engines.map (fun g => (g.1, { g.2 with copies := g.2.copies.map rewind }))

/-- The divisions in force of the operand nodes of matrix cells, which stay with their sites (R44). -/
def divisions (s : State) : FMap Elem :=
  s.fab.elems.filterMap (fun e =>
    let v := getD e.2.fields 0 0x16 % 16
    if e.1 % 4 = 0 ∧ siteKind s (e.1 / 9216) (e.1 / 4 % 2304) = 0xA ∧ v ≠ 0 then some (e.1, { Elem.reset with fields := [(0x16, v)] }) else none)

/-- A node whose division is another than it was is emptied (R44). -/
def redivide (old s : State) (key : Nat) : State :=
  (range' 0 2).foldl (fun s n => if nbuf s key n = nbuf old key n then s else clearNode s key n) s

/-- The number of a job saved, with free bytes, begins its save area: it stands for what R406 writes there (DESIGN CHOICE, log 13). -/
def writeJob (s : State) (area num : Nat) : State :=
  homeWrite { s with draws := s.draws + 7 } (locHbm area)
    (bytesOfNat 8 num ++ (range' s.draws 7).flatMap (fun k => bytesOfNat 8 (Config.freeWord k).toNat))

/-- The accepted copies of the package stop at an element boundary, their writes on the way ended, and each is saved in the area, behind
its first 128 bytes, as a record of its place (R152); where in the area, the spec does not say (DESIGN CHOICE, log 13). -/
def saveCopies (s : State) (area : Nat) : State :=
  let all (s : State) : List (Nat × Copy) := s.engines.flatMap (fun g => g.2.copies.map (fun c => (g.1, c)))
  let s0 := (all s).foldl (fun s x => drainWr s x.1 x.2) s
  let s1 := { s0 with engines := rewound s0 }
  ((all s1).zip (range' 0 (all s1).length)).foldl (fun s x =>
    homeWrite s (locHbm (area + 128 * (x.2 + 1))) (recBytes (savedRec x.1.1 x.1.2) 0)) s1

/-- BUSY of JCTL while an action is in progress, and its end (R406). -/
def jobBegins (s : State) (save : Bool) : State :=
  { setDev s 0x100880 (dev s 0x100880 ||| 4#64) with host := { s.host with job := some save } }
def jobEnds (s : State) : State :=
  if s.host.job.isNone then s
  else { setDev s 0x100880 (dev s 0x100880 &&& ~~~4#64) with host := { s.host with job := none } }

/-- JCTL SAVE (R406): every context pre-empted, every other timestamp task aborted, copies stopped where they stand,
graphs frozen and their sites released; the divisions and the tags of operand buffers stay. -/
def jctlSave (s0 : State) : State :=
  let s := jobEnds s0
  let area := bits (dev s 0x100880) 38 12
  let busy := (s.cur, s.cx) :: s.others
  let s1 := saveCopies ((busy.map (·.1)).foldl preempt s) area
  let s2 := ((s1.ended.filter (fun e => frontier s1 e.tid.dom ≠ some e.tid)).map (·.tid)).foldl
    (fun s t => abortTask s t true) s1
  let heads (d : Dispatcher) : Dispatcher :=
    { d with resident := [], stopped := true
             queues := d.queues.map (fun q => (q.1,
               match d.resident.find? (fun r => r.queue = q.1) with
               | some r => { q.2 with spilled := r.head.map (fun h => { h with since := s2.cycle - h.since }) }
               | none => q.2)) }
  let s3 := { s2 with disp := s2.disp.map (fun d => (d.1, heads d.2)) }
  let s3 := writeJob s3 area s3.host.saved.length
  let snap := snapOf s3 []
  let cells := s3.fab.cells.map (fun c => (c.1, { Cell.reset with tags := c.2.tags, fill := c.2.fill, stage := c.2.stage, taint := c.2.taint }))
  invalAll { s3 with
    host := { s3.host with saved := put s3.host.saved s3.host.saved.length snap }
    disp := s3.disp.map (fun d => (d.1, { Dispatcher.reset with recSeq := d.2.recSeq, recWait := d.2.recWait, ftask := d.2.ftask }))
    engines := [], domains := [], live := [], ended := [], dir := [], chunksUsed := []
    cx := { s3.cx with reserved := false }, others := s3.others.map (fun c => (c.1, { c.2 with reserved := false }))
    fab := { Fabric.reset with cells := cells, elems := divisions s3 } }

/-- JCTL RESTORE (R406): the reverse, of the job whose number the area holds; the queue tables are read again, the graphs go on. -/
def jctlRestore (s0 : State) : State :=
  let area := bits (dev s0 0x100880) 38 12
  let r := homeRead (jobEnds s0) (locHbm area) 8
  let s := r.2
  match look s.host.saved (natOfBytes r.1) with
  | none => s
  | some p =>
    let tagged (k : Nat) (c : Cell) : Cell :=
      { c with tags := (cellAt s k).tags, fill := (cellAt s k).fill, stage := (cellAt s k).stage, taint := (cellAt s k).taint }
    let cells := s.fab.cells.foldl (fun m c => put m c.1 (tagged c.1 ((look p.fab.cells c.1).getD Cell.reset)))
      (p.fab.cells.map (fun c => (c.1, tagged c.1 c.2)))
    let elems := (divisions s).foldl (fun m e => if (look m e.1).isSome then m else put m e.1 e.2) p.fab.elems
    let s1 := invalAll { s with
      dev := p.dev ++ s.dev.filter (fun r => !decide (r.1 < 0x100800))
      disp := p.disp.map (fun d => (d.1, { d.2 with
        stopped := false, recSeq := (dispAt s d.1).recSeq, recWait := (dispAt s d.1).recWait, ftask := (dispAt s d.1).ftask }))
      engines := p.engines, domains := p.domains, live := p.live, ended := p.ended, dir := p.dir, chunksUsed := p.chunks
      fab := { p.fab with cells := cells, elems := elems } }
    let s1 := (cells.map (·.1)).foldl (redivide s) s1
    let s1 := p.homes.foldl (fun s c => updCtx s c (fun x => { x with reserved := true })) s1
    let s2 := if bit (dev s1 0x100300) 0 then readCqtab s1 else s1
    let s3 := if bit (dev s2 0x100600) 0 then readTqtab s2 else s2
    let s4 := { s3 with fab := { s3.fab with
      graphs := s3.fab.graphs.map (fun g => (g.1, { g.2 with frozen := false }))
      elems := s3.fab.elems.map (fun e => (e.1, { e.2 with frozen := false })) } }
    (range' 0 4).foldl resumeSaved s4

/-! ## Boot and power (R427-R430) -/

/-- Sets a bit of BOOT. -/
def setBoot (s : State) (n : Nat) : State :=
  let v := dev s 0x100A18
  if bit v n then s else setDev s 0x100A18 (BitVec.ofNat 64 (v + 2 ^ n))

/-- BOOT.GO (R428): without effect but for ERR where a step of bring-up has failed (R427). -/
def bootGo (s : State) : State :=
  let err : State := setBoot s 2
  let v := dev s 0x100A18
  let va := hdrVa (bits v 56 6)
  if s.host.failed || !bit v 1 || !bit (dev s 0x100608) 0 then err
  else
    match agtXl s 0 va .rd 64 64 true with
    | .error _ => err
    | .ok x =>
      if linkDown s x || poisoned s x.loc 64 then err
      else
        let p0 := packetOf (homeRead s x.loc 64).1
        let p := p0 ||| 0x3F0000#512
        if pk p 7 0 ≠ 1 ∨ launchBad s p ∨ pk p 9 8 ≠ 0 ∨ domTs s (pkDom p) then err
        else
          match handlerEntry s 0 (pkHidx p) with
          | .error _ => err
          | .ok e =>
            let s1 := enqueueSpawn (entryNote (walkNote s 0 va.toNat) 0 (pkHidx p)) 0 p (pkTs p) (pk p 24 22) none true false e
            { s1 with host := { s1.host with booted := true } }

/-- Whether a job is running: tasks, copies or started graphs. -/
def jobRunning (s : State) : Bool :=
  s.cx.task.isSome || s.others.any (fun c => c.2.task.isSome) || !s.live.isEmpty ||
  s.engines.any (fun e => !e.2.copies.isEmpty) || s.fab.graphs.any (fun g => g.2.started)

/-- Sets CUR of PWRCTL. -/
def setCur (s : State) (cur : Nat) : State :=
  let v := dev s 0x100A20
  setDev s 0x100A20 (BitVec.ofNat 64 (v - 4 * bits v 3 2 + 4 * cur))

/-- PWRCTL: RUN, STANDBY, OFF (R429). -/
def pwrRun (s : State) : State := { setCur s 0 with host := { (setCur s 0).host with standby := false } }
def pwrStandby (s : State) : State :=
  if jobRunning s then s else { setCur s 1 with host := { (setCur s 1).host with standby := true } }
def pwrOff (_ : State) : State := { State.reset with host := { HostSt.reset with off := true } }

/-! ## Reading and writing (R6, R7, R16) -/

/-- The RW bits of a register, as a mask. -/
def rwMask (off : Nat) : Nat :=
  let f (hi lo : Nat) : Nat := (2 ^ (hi - lo + 1) - 1) * 2 ^ lo
  if off = 0x100000 then f 38 5
  else if 0x100100 ≤ off ∧ off < 0x100180 then f 2 0 + f 31 6 + f 63 38
  else if off = 0x100200 then f 0 0 + f 38 16
  else if off = 0x100208 then f 38 16
  else if off = 0x100300 then f 0 0 + f 38 13
  else if 0x100400 ≤ off ∧ off < 0x100600 then f 1 0 + f 13 8
  else if off = 0x100600 then f 0 0 + f 38 15
  else if off = 0x100608 then f 0 0 + f 56 16
  else if 0x100610 ≤ off ∧ off < 0x100630 then f 0 0 + f 38 27
  else if off = 0x100630 then f 56 4
  else if off = 0x100638 then f 16 0
  else if off = 0x100740 then f 0 0 + f 56 17
  else if off = 0x100700 then 0
  else if 0x100640 ≤ off ∧ off < 0x100740 then f 10 0
  else if off = 0x100800 then f 0 0 + f 56 2
  else if off = 0x100808 then f 22 0
  else if 0x100810 ≤ off ∧ off < 0x100830 then f 0 0 + f 31 17
  else if off = 0x100880 then f 38 12
  else if off = 0x100900 then f 18 0
  else if 0x100908 ≤ off ∧ off < 0x100928 then f 0 0 + f 22 3
  else if off = 0x100928 then f 0 0 + f 38 29
  else if off = 0x100A10 then f 26 0
  else if off = 0x100A18 then f 56 6
  else if off = 0x100A20 then f 1 0 + f 15 4
  else 0

/-- The RC bits of a register: ECNT, HSEM.DENY, LNKST. -/
def rcMask (off : Nat) : Nat :=
  if 0x100940 ≤ off ∧ off < 0x100960 then 2 ^ 48 - 1
  else if off = 0x100A00 then 0xFFFF * 2 ^ 32
  else if 0x100B00 ≤ off ∧ off < 0x100B60 then 0xFFFFFFFF * 2 ^ 16
  else 0

/-- Fenced units of a die (R403). -/
def fencedOf (s : State) (die : Nat) : Nat :=
  (s.fmap.filter (fun p => p.2 && decide (p.1 / 2304 = die))).length

/-- The 8-byte value that a read of a register returns, by its offset. -/
def regView (s : State) (off : Nat) : Nat :=
  if 0x200000 ≤ off ∧ off < 0x202000 then
    let die := (off - 0x200000) / 0x800
    let w := (off - 0x200000) % 0x800 / 8
    (range' 0 16).foldl (fun v i => v + siteKind s die (16 * w + i) * 2 ^ (4 * i)) 0
  else if 0x202000 ≤ off ∧ off < 0x202800 then
    let die := (off - 0x202000) / 0x200
    let w := (off - 0x202000) % 0x200 / 8
    (range' 0 64).foldl (fun v i => if fenced s (2304 * die + 64 * w + i) then v + 2 ^ i else v) 0
  else if 0x100940 ≤ off ∧ off < 0x100960 then
    dev s off % 2 ^ 48 + (fencedOf s ((off - 0x100940) / 8) % 65536) * 2 ^ 48
  else if off = 0x100900 then
    let v := dev s off
    let m := bits v 18 14
    if 12 ≤ m ∧ m ≤ 20 then v else v - m * 2 ^ 14 + 20 * 2 ^ 14
  else dev s off

/-- A number with every bit outside a mask cleared. -/
def msk (v m : Nat) : Nat := Nat.land v m

/-- The bits of n bytes at an offset within a register. -/
def byteMask (off n : Nat) : Nat := (2 ^ (8 * n) - 1) * 2 ^ (8 * (off % 8))

/-- Reads n bytes of a register: the value, and the state with its RC fields among those bytes clear. -/
def regRead (s : State) (off n : Nat) : Nat × State :=
  let o := off / 8 * 8
  let v := regView s o
  let clr := msk (rcMask o) (byteMask off n)
  (v / 2 ^ (8 * (off % 8)) % 2 ^ (8 * n),
   if clr = 0 then s else setDev s o (BitVec.ofNat 64 (msk (dev s o) (2 ^ 64 - 1 - clr))))

/-- The bytes of memory that mirror windows cover (R410). -/
def mirrorSize (s : State) : Nat :=
  (range' 0 4).foldl (fun n i =>
    let w := dev s (0x100908 + 8 * i)
    if bit w 0 ∧ bits w 12 3 ≤ bits w 22 13 then n + (bits w 22 13 + 1 - bits w 12 3) * 2 ^ 29 else n) 0

/-- MSI-X: a vector is sent, or pends where masked (R417). -/
def sendVector (s : State) (v : Nat) : State :=
  let vec := bits v 10 0
  let port := bits v 11 11
  if bits v 63 12 ≠ 0 then s
  else if getD s.host.masked false (2048 * port + vec) then
    { s with host := { s.host with pending := put s.host.pending (2048 * port + vec) true } }
  else { s with host := { s.host with sent := s.host.sent ++ [(port, vec)] } }

/-- Every link is down: a package whose LEN is 0 carries no traffic (R418, Table 14-5). -/
def linksDown (s : State) : State :=
  (range' 0 12).foldl (fun s p =>
    let o := 0x100B00 + 8 * p
    let v := dev s o
    if bit v 0 then setDev s o (BitVec.ofNat 64 (v - 1)) else s) s

/-- A write of n bytes at an offset, as the register takes it: the RW bits first, then what its description adds. A command acts where
the write takes in its half of the register; a write of a Reserved half has no effect (R7). A cause is the fault of the write
(R410). A write of JCTL with both SAVE and RESTORE, which R6 puts in no order, acts as SAVE alone (DESIGN CHOICE, log 36). -/
def regWrite (s : State) (off n : Nat) (data : Nat) : Except Nat State :=
  let o := off / 8 * 8
  let v := data % 2 ^ (8 * n) * 2 ^ (8 * (off % 8))
  let old := dev s o
  let m0 := msk (rwMask o) (byteMask off n)
  let m :=
    if 0x100400 ≤ o ∧ o < 0x100600 ∧ s.live.any (fun l => l.task.tid.dom = (o - 0x100400) / 8) then msk m0 (2 ^ 64 - 1 - 2)
    else if o = 0x100A10 ∧ bit old 26 then msk m0 (2 ^ 26)
    else if o = 0x100A20 ∧ bits v 1 0 = 2 ∧ bit (byteMask off n) 0 then msk m0 (2 ^ 64 - 4)
    else m0
  let new := msk old (2 ^ 64 - 1 - m) + msk v m
  let s1 := setDev s o (BitVec.ofNat 64 new)
  let low := bit (byteMask off n) 0
  let pipe := (o - 0x100640) / 8 % 8
  let pdie := (o - 0x100640) / 64
  if o = 0x100000 then .ok (invalAll s1)
  else if o = 0x100300 then .ok (if bit new 0 then readCqtab s1 else s1)
  else if o = 0x100600 then .ok (if bit new 0 then readTqtab s1 else s1)
  else if o ≠ 0x100700 ∧ o ≠ 0x100740 ∧ 0x100640 ≤ o ∧ o < 0x100740 then
    .ok (if !low then s else updDisp s1 pdie (fun d => { d with
      stage := d.stage.filter (fun x => !(pipeCores s pdie pipe).contains x.1 && !(pipeCores s1 pdie pipe).contains x.1) }))
  else if o = 0x100830 then
    let die := bits v 11 10
    .ok (if !low then s1 else match bits v 13 12 with
      | 0 => frResume s1 die (bits v 9 0)
      | 1 => frAbandon s1 die (bits v 9 0)
      | 2 => frRelease s1 die (bits v 9 0)
      | _ => s1)
  else if o = 0x100840 then
    let die := bits v 13 12
    let site := bits v 11 0
    .ok (if !low then s1 else match bits v 15 14 with
      | 1 => drainSite s1 die site
      | 2 => fenceSite s1 die site
      | 3 => unfenceSite s1 die site
      | _ => s1)
  else if o = 0x100880 then
    .ok (if s.host.job.isSome then s else if bit v 0 then jobBegins s1 true else if bit v 1 then jobBegins s1 false else s1)
  else if o = 0x100900 then
    if low ∧ bit new 0 ∧ 2 ^ 38 < mirrorSize s1 then .error cCFGBAD else .ok s1
  else if o = 0x100A08 then .ok (if n = 8 then sendVector s v else if low then sendVector s v else s)
  else if o = 0x100A10 then .ok (if bit new 26 then s1 else linksDown s1)
  else if o = 0x100A18 then .ok (if bit v 0 then bootGo s1 else s1)
  else if o = 0x100A20 then
    let cap := bits new 15 4
    let cap' := if cap < 60 then 60 else if 240 < cap then 240 else cap
    let s2 := setDev s1 o (BitVec.ofNat 64 (new - cap * 16 + cap' * 16))
    .ok (if !low then s2
         else match bits v 1 0 with
          | 0 => pwrRun s2
          | 1 => pwrStandby s2
          | 3 => pwrOff s2
          | _ => s2)
  else .ok s1

/-- A CAS on HSEM (R415): the old bits [31:0], and the state. -/
def hsemCas (s : State) (who : RegParty) (expected new : Nat) : Nat × State :=
  let v := dev s 0x100A00
  let old := v % 2 ^ 32
  let own := new % 4
  let may : Bool := match who with
    | .p0 => own == 0 || own == 1
    | .p1 => own == 0 || own == 2
    | .device => own == 0
  if expected ≠ old ∨ !may then (old, s)
  else
    let gen := if own = 0 ∧ old % 4 ≠ 0 then (bits v 31 16 + 1) % 65536 else bits v 31 16
    (old, setDev s 0x100A00 (BitVec.ofNat 64 (bits v 63 32 * 2 ^ 32 + gen * 2 ^ 16 + own)))

/-- A core's CAS of n bytes on a register (R16): the value a read returns, no RC field cleared; on HSEM by R415, from
S mode alone. -/
def regCas (s : State) (off n expected new : Nat) (super : Bool) : Except Nat (Nat × State) :=
  let o := off / 8 * 8
  let v := regView s o / 2 ^ (8 * (off % 8)) % 2 ^ (8 * n)
  if o = 0x100A00 then
    if n = 4 ∧ off = o ∧ super then .ok (hsemCas s .device expected new) else .ok (v, s)
  else if v ≠ expected then .ok (v, s)
  else
    match regWrite s off n new with
    | .error c => .error c
    | .ok s' => .ok (v, s')

end Sys2Proof.Machine
end

