-- ==== Sys2Proof/Machine/Ops.lean ====
section
/-! DEFINITION. Taking a trap and returning from one, waiting, running one instruction, and the loads and stores of a
context (spec/07 R192, spec/08 R229-R231, spec/09 R268, spec/13 R396-R401). -/

namespace Sys2Proof.Machine
open Sys2Proof

/-! ## Trap entry and return (R400, R401) -/

/-- A program counter: a 57-bit VA (R229). What becomes of the bits above of a computed target, R229 leaves open: they are dropped, bit
56 taking their place, so that no target fails R10's check (DESIGN CHOICE, log 47). -/
def pcOf (a : W64) : W64 := (a.setWidth 57).signExtend 64

/-- TVEC.ENTRY as an address. -/
def trapEntry (s : State) : W64 := pcOf (BitVec.ofNat 64 (bits (dev s 0x100800) 56 2 * 4))

/-- Entry of the trap handler: the saved registers, the mode, the pc (R400, steps 2 to 4). -/
def enterTrap (s : State) (x : Pend) (record : W32) : State :=
  { s with cx := { s.cx with
      cause := BitVec.ofNat 64 x.f.cause, epc := pcOf (x.pc + BitVec.ofNat 64 x.f.skip), fault := record, pmode := s.cx.mode, mode := true,
      pc := trapEntry s, wait := none, got := none, walked := [], point := none } }

/-! ## Waiting and cancellation (R192, R223) -/

/-- Whether a wait is a stall of R192, which a cancel ends. -/
def isStall : Wait → Bool
  | .idle _ => false
  | .walk _ => false
  | .fetch _ => false
  | .deferred _ => false
  | .dropped => false
  | .room (.peer _) => false
  | .room (.bank _) => false
  | .room (.port _ _) => false
  | .room (.claim _) => false
  | _ => true

/-- Whether a context's task is a free task of a cancelled job: fault tasks and boot tasks belong to no job. -/
def cancelHits (s : State) (cid : Nat) : Bool :=
  (dispAt s (cidDie cid)).cancelled && !isTs s (ctxOf s cid) && (ctxOf s cid).task.any (fun t => !t.super)

/-- A free task of a cancelled job is killed with CANCEL (R223): its record is asynchronous. -/
def cancelKill (s : State) (cid : Nat) : State :=
  match (ctxOf s cid).task with
  | none => s
  | some t =>
    let x : Pend := { f := faultAt cCANCEL 0, pc := (ctxOf s cid).pc, ir := (ctxOf s cid).ir }
    killTask (asyncRec s (cidDie cid) (ctxRec s cid t x)) cid

/-- The current context waits. A wait for a chunk, resumed in vain, goes on from when it began (R206). -/
def enterWait (s : State) (w0 : Wait) : State :=
  let w := match s.cx.wait, w0 with
    | some (.chunk t _), .chunk _ ea => .chunk t ea
    | _, _ => w0
  if isStall w && cancelHits s s.cur then cancelKill s s.cur
  else { s with cx := { s.cx with wait := some w } }

/-! ## Delivery and return (R207, R339, R397, R400, R401) -/

/-- A trap is delivered (R397, R400): without a free record it waits; with TVEC.EN = 0 the task is killed and its record
delivered asynchronously. Causes from 0x100 on are TRAP and BRK, which write a record only in that last case. -/
def deliverTrap (s : State) (x : Pend) : State :=
  match s.cx.task with
  | none => s
  | some t =>
    let en := bit (dev s 0x100800) 0
    if en ∧ 0x100 ≤ x.f.cause then enterTrap s x 0xFFFFFFFF
    else
      let die := cidDie s.cur
      match writeRec s die (ctxRec s s.cur t x) with
      | none => enterWait { s with cx := { s.cx with got := none } } (.record x)
      | some (a, n, s1) =>
        if en then enterTrap s1 x (BitVec.ofNat 32 a)
        else killTask (updDisp s1 die (fun d => { d with ftask := d.ftask ++ [n] })) s.cur

/-- TRAP_ENTRY: the current context's trap (R207, R400). In a timestamp task that is not the frontier task it is deferred.
Poison met counts as an uncorrectable error of the die (R403). -/
def takeTrap (s : State) (x : Pend) : State :=
  let s := countCause s (cidDie s.cur) x.f.cause
  if isSpec s s.cx then
    { s with cx := { s.cx with wait := some (.deferred { x with f := { x.f with deferred := true } }), got := none } }
  else deliverTrap s x

/-- ERET's effect (R339, R401): BUSY of the record that fault names is cleared, fault names none, MODE and pc return; a fill that
trapped is due again (R243). -/
def returnTrap (s : State) : State :=
  let s1 := if s.cx.fault = 0xFFFFFFFF#32 then s else clearBusy s s.cx.fault.toNat
  { s1 with cx := { s1.cx with
    fault := 0xFFFFFFFF#32, mode := s1.cx.pmode, pc := pcOf s1.cx.epc
    refill := if s1.cx.refill = .trapped then .due else s1.cx.refill } }

/-! ## One instruction -/

/-- How an instruction that was not stopped ends: with the next one, with a transfer of control, with an effect that
takes place once it has retired, or with its task. -/
inductive Flow where
  | next
  | jump (a : W64)
  | after (f : State → State)
  | gone

/-- Retirement: the pc moves on; what the instruction popped, and what an ended wait left, is used up. -/
def retire (s : State) (pc : W64) : State :=
  { s with cx := { s.cx with
      pc := pcOf pc, wait := none, got := none, walked := [], point := none, ports := s.cx.ports.map (fun p => (p.1, { p.2 with popped := [] })) } }

/-- A port as an instruction that stops leaves it: as before, but that the binding keeps what was popped, DONE too, that what was
taken from a channel silently stays taken and what its hold has sent stays sent, and that a bind that failed leaves it unbound (R240,
R285, R289, R291, R294). -/
def undoPort (pre post : Port) : Port :=
  if post.bind = .unbound then post
  else if post.bind ≠ pre.bind then pre
  else
    let p := { pre with ahead := post.popped ++ post.ahead, popped := [] }
    match pre.bind with
    | .channel _ _ => { p with pos := post.pos, thr := post.thr, debt := post.debt, last := post.last, hold := post.hold }
    | _ => p

/-- The ports of a context as an instruction that stops leaves them. -/
def undoPorts (pre post : State) : State :=
  { post with cx := { post.cx with
      ports := pre.cx.ports.map (fun p => (p.1, undoPort p.2 (getD post.cx.ports Port.free p.1))) } }

/-- How the machine stands after an instruction's body, from the state before it: where the body stops, nothing that it did stands
but what its rule says stays (R240, R256, R400). -/
def finish (s : State) (len : Nat) : EStateM.Result Stop State Flow → State
  | .ok .next s1 => retire s1 (s.cx.pc + BitVec.ofNat 64 len)
  | .ok (.jump a) s1 => retire s1 a
  | .ok (.after f) s1 => f (retire s1 (s.cx.pc + BitVec.ofNat 64 len))
  | .ok .gone s1 => s1
  | .error (.trap f kept) _ => takeTrap (undoPorts s (kept.getD s)) { f := f, pc := s.cx.pc, ir := s.cx.ir }
  | .error (.wait w kept) _ => enterWait (undoPorts s (kept.getD s)) w
  | .error (.gone s1) _ => s1

/-- One instruction of the current context: predicated off, it has no effect and faults on nothing; an ill-formed use is ILLEGAL (R231,
R232). -/
def runInsn (ok on : Bool) (len : Nat) (body : Act Flow) (s : State) : Host.Outcome State Fault Refusal :=
  if s.host.off then .fault .powerOff
  else if s.cx.task.isNone then .refused .noTask
  else if !on then .next (retire s (s.cx.pc + BitVec.ofNat 64 len))
  else if !ok then .next (takeTrap s { f := faultAt cILLEGAL 0, pc := s.cx.pc, ir := s.cx.ir })
  else .next (finish s len (body s))

/-- A step of another agent: it always has its effect, which is none where its conditions do not hold. -/
def runEvent (f : State → State) (s : State) : Host.Outcome State Fault Refusal :=
  if s.host.off then .fault .powerOff else .next (f s)

/-- The length of an instruction with or without an X word. -/
def lenX (has : Bool) : Nat := if has then 8 else 4

/-- A part of an instruction after others whose effects its rule keeps: where it stops, they stand. -/
def keepOn {α : Type} (x : Act α) : Act α := fun s =>
  match x s with
  | .error (.trap f none) s' => .error (.trap f (some s)) s'
  | .error (.wait w none) s' => .error (.wait w (some s)) s'
  | r => r

/-! ## Gates: mirror points, host links (R410, R414) -/

/-- The current task has acted in a way that R407 lists. -/
def markExposed : Act Unit := upd (fun s =>
  { s with cx := { s.cx with task := s.cx.task.map (fun t => { t with exposed := true }) } })

/-- An effect that leaves the package waits, while mirroring is on, for the completion of the first mirror point that
closes after it came up (R410). -/
def mirrorGate : Act Unit := fun s =>
  if !bit (dev s 0x100900) 0 then .ok () s
  else
    match s.cx.point with
    | none => .error (.wait (.idle (s.cycle + 1)) (some { s with cx := { s.cx with point := some (s.host.points + 1) } })) s
    | some n => if n ≤ s.host.pointsDone then .ok () s else .error (.wait (.idle (s.cycle + 1)) none) s

/-- An access to host memory through a link that is down, or whose request completes with an error, faults ECC_UE
(R414). One to another package waits for room at the links, a delay (R15, R192, R422). -/
def hostGate (x : Xl) (va : W64) : Act Unit := fun s =>
  if x.t = 1 then
    if !getD s.host.up false (if x.hp then 1 else 0) then .error (.trap (faultAt cECC va) none) s
    else if s.host.bad.contains s.cur then
      .error (.trap (faultAt cECC va) (some { s with host := { s.host with bad := s.host.bad.erase s.cur } })) s
    else .ok () { s with host := { s.host with port := setD s.host.port false (x.loc / 64) x.hp } }
  else if peerBase ≤ x.loc then
    (do
      mirrorGate
      let room ← view (fun s => injectRoom s 1)
      if room then pure () else waitFor (.room (.peer 1)) : Act Unit) s
  else .ok () s

/-! ## Loads and stores of the current context (R267, R268) -/

/-- Waits for frontier, then counts as exposed: a device-register access (R16, R407). -/
def deviceGate : Act Unit := do needFrontier; markExposed

/-- An S-space access checked by R17-R20: its target. -/
def xlS (ea : W64) (align : Nat) : Act Xl := do
  let s ← view id
  let a ← orTrap (checkS s ea align s.cx.mode)
  pure { va := ea, t := 0, pa := a, loc := a, c := false, o := (srgn s a).1, p := false, hp := false }

/-- The target in a bank of an atomic or of a named object, checked (R50, R319). -/
def xlObj (ea : W64) (align : Nat) : Act Xl := do
  let s ← view id
  let a ← orTrap (checkObj s ea align s.cx.mode)
  pure { va := ea, t := 0, pa := a, loc := a, c := false, o := (srgn s a).1, p := false, hp := false }

/-- A VA access or an S-space access of n bytes at an address aligned to n: its target. -/
def xlAny (sp : Bool) (ea : W64) (acc : Acc) (n : Nat) (scalar : Bool) : Act Xl := do
  if sp then xlS ea n
  else
    let x ← translate ea acc n n scalar
    hostGate x ea
    pure x

/-- A scalar load of n bytes (R268). -/
def loadScalar (sp : Bool) (ea : W64) (n : Nat) : Act Nat := do
  let x ← xlAny sp ea .rd n true
  if x.t = 3 then
    deviceGate
    fun s => let r := regRead s (x.pa % 2 ^ 32) n; .ok r.1 r.2
  else
    let bs ← loadBytes x n ea
    pure (natOfBytes bs)

/-- A release before an action at a scope of 1 CORE to 5 SYSTEM: a SYSTEM-scope release waits for its mirror point
(R167, R410). -/
def releaseAt (scope : Nat) : Act Unit := do
  if scope = 5 then mirrorGate else pure ()
  release

/-- A write of n bytes to a register by the current context, where that is HNOTE: a SYSTEM-scope release; a timestamp task's message
is held until its commit (R417). Whether it is held. -/
def hnoteHeld (off n : Nat) (v : W64) : Act Bool := do
  let ts ← view (fun s => isTs s s.cx)
  if off ≠ 0x100A08 then pure false
  else if ts then
    upd (fun s => { s with cx := { s.cx with held := s.cx.held ++ [.hnote (BitVec.ofNat 64 (v.toNat % 2 ^ (8 * n)))] } })
    pure true
  else
    releaseAt 5
    pure false

/-- A scalar store of n bytes (R268). A register takes its write once the store has retired (DEDUCED, log 21). -/
def storeScalar (sp : Bool) (ea : W64) (n : Nat) (v : W64) : Act Flow := do
  let x ← xlAny sp ea .wr n true
  if x.t = 3 then
    deviceGate
    let s ← view id
    let off := x.pa % 2 ^ 32
    let held ← hnoteHeld off n v
    if held then pure .next
    else
      match regWrite s off n v.toNat with
      | .error c => trapAt c ea
      | .ok _ => pure (.after (fun s => match regWrite s off n v.toNat with
          | .ok s' => s'
          | .error _ => s))
  else
    storeBytes x.va x.loc (bytesOfNat n v.toNat) none x.o
    pure .next

/-- A plain load of n bytes at a place already checked. -/
def loadAt (x : Xl) (off n : Nat) (ea : W64) : Act (List Byte) := loadBytes { x with loc := x.loc + off, pa := x.pa + off } n ea

/-- A load of n bytes, aligned to n, by a context as a whole: the reads of headers, packets and records. -/
def loadWhole (sp : Bool) (ea : W64) (n : Nat) : Act (List Byte) := do
  let x ← xlAny sp ea .rd n false
  loadBytes x n ea

/-- The end of the current task at a completion scope 0 CORE to 4 SYSTEM (R321): a SYSTEM-scope end of a free task waits
for its mirror point. A posted atomic that faults traps here (R280), and so does a store to host memory whose request is not made
(R414). A timestamp task that is not the frontier task waits while its
core holds 16 ended tasks (R204; DESIGN CHOICE, log 46). -/
def endSelf (csc : Nat) : Act Flow := do
  let full ← view (fun s => isSpec s s.cx && decide (16 ≤ endedOn s (coreOf s.cur)))
  if full then (fun s => .error (.wait (.idle (s.cycle + 1)) none) s) else pure ()
  let ts ← view (fun s => isTs s s.cx)
  if csc = 4 && !ts then mirrorGate else pure ()
  upd (fun s => drainAll s s.cur)
  upd (fun s => if !ts && (s.cx.journal ++ s.cx.sb).any (lineFails s) then publishCtx s s.cur else s)
  let bad ← view (fun s => !s.cx.trapNext.isEmpty)
  if bad then (fun s => .error (.wait (.idle (s.cycle + 1)) (some s)) s) else pure ()
  upd (fun s => endTask s s.cur csc)
  pure .gone

/-! ## Counted actions (R408) -/

/-- A spawn, MSEND or engine command of the current task: counted, and dropped where a re-run has it already. What
result a dropped one would have given is a free value (DESIGN CHOICE, log 23). -/
def counted (x : Act W64) : Act W64 := do
  let drop ← view (fun s => match s.cx.task with
    | some t => decide (t.issued < t.dropFirst)
    | none => false)
  let v ← (if drop then (fun s => .ok (Config.freeWord s.draws) { s with draws := s.draws + 1 }) else x)
  upd (fun s => { s with cx := { s.cx with task := s.cx.task.map (fun t => { t with issued := t.issued + 1 }) } })
  pure v

end Sys2Proof.Machine
end

