-- ==== Sys2Proof/Machine/Operands.lean ====
section
/-! DEFINITION. Operand forms: registers by class, windows, stream ports as operands, immediates (spec/08 R224-R225,
R230-R232, R237-R242, spec/09 R285-R291). -/

namespace Sys2Proof.Machine
open Sys2Proof

/-! ## Classes (R225) -/

/-- Class V: v0-v31 and the ports. -/
def isV (x : BitVec 6) : Bool := decide (x.toNat < 32) || decide (48 ≤ x.toNat)
/-- A port number. -/
def isQ (x : BitVec 6) : Bool := decide (48 ≤ x.toNat)
/-- Class P. -/
def isP (x : BitVec 6) : Bool := decide (x.toNat < 8)
/-- A destination of class P. -/
def isPd (x : BitVec 6) : Bool := decide (1 ≤ x.toNat) && decide (x.toNat < 8)

/-! ## Ports: patterns (R285-R287) -/

/-- A port of the current context. -/
def portAt (c : Ctx) (n : Nat) : Port := getD c.ports Port.free n
def updPort (n : Nat) (f : Port → Port) : Act Unit := upd (fun s =>
  { s with cx := { s.cx with ports := setD s.cx.ports Port.free n (f (portAt s.cx n)) } })

/-- Bits [hi:lo] of a pattern descriptor (Table 9-3). -/
def db (d : BitVec 256) (hi lo : Nat) : Nat := bits d.toNat hi lo

/-- Element size of a pattern (R285). -/
def patSize (d : BitVec 256) : Nat :=
  if db d 194 194 = 1 then 64
  else
    match db d 203 200 with
    | 0x0 => 4
    | 0xC => 4
    | 0x1 => 2
    | 0x2 => 2
    | _ => 1

/-- Elements of a pattern. -/
def patCount (d : BitVec 256) : Nat := db d 95 64 * db d 111 96 * db d 127 112

/-- (i0, i1, i2) of the element at a place in pattern order. -/
def patIndex (d : BitVec 256) (e : Nat) : Nat × Nat × Nat :=
  let n0 := max (db d 95 64) 1
  let n1 := max (db d 111 96) 1
  (e % n0, e / n0 % n1, e / n0 / n1)

/-- The address of an element (R285). -/
def patAddr (d : BitVec 256) (e : Nat) : W64 :=
  let (i0, i1, i2) := patIndex d e
  BitVec.ofInt 64 ((db d 63 0 : Int) + (i2 : Int) * sgn 32 (db d 191 160) + (i1 : Int) * sgn 32 (db d 159 128) +
    (i0 : Int) * (patSize d : Int))

/-- A fault of a pattern's element names the port and the element (R297). -/
def atElem {α : Type} (n : Nat) (d : BitVec 256) (e : Nat) (x : Act α) : Act α := fun s =>
  match x s with
  | .error (.trap f k) s' => .error (.trap { f with port := some n, pos := some (patIndex d e) } k) s'
  | r => r

/-- The target of an element, translated and checked as an access of the context. -/
def patXl (d : BitVec 256) (e : Nat) (acc : Acc) : Act Xl :=
  xlAny (db d 193 193 == 1) (patAddr d e) acc (patSize d) false

/-- Reads an element as a load of the context (R287). -/
def patRead (n : Nat) (d : BitVec 256) (e : Nat) : Act Vec := atElem n d e (do
  let x ← patXl d e .rd
  let bs ← loadBytes x (patSize d) (patAddr d e)
  pure (BitVec.ofNat 512 (natOfBytes bs)))

/-- The value of a raw scalar element in a G position (R286). -/
def widen (fmt : Nat) (wid sg : Bool) (pol : Nat) (x : Nat) : W64 :=
  let w := 8 * elemSize fmt
  let x := x % 2 ^ w
  if wid then
    match fpOf fmt with
    | some F => BitVec.ofNat 64 (convert (decodeFp F x) fp32 .rne (pol - pol % 4))
    | none => BitVec.ofNat 64 x
  else if sg then (BitVec.ofNat w x).signExtend 64 else BitVec.ofNat 64 x

/-- The element that a push of a value stores or emits: a conversion by R83, which takes the value as it is (R286). -/
def narrow (fmt : Nat) (wid : Bool) (pol : Nat) (v : Nat) : Nat :=
  if wid then elemEnc fmt .rne pol (elemVal 0 0 (v % 2 ^ 32)) else v % 2 ^ (8 * elemSize fmt)

/-- The current core's POL (R227). -/
def polOf (s : State) : Nat := (coreAt s (coreOf s.cur)).pol.toNat

/-- Sets EOS of a port (R239). -/
def setEos (n : Nat) : Act Unit := updPort n (fun p => { p with eos := true })

/-! ## Ports: channels (R288-R291, R294) -/

/-- Bits of an endpoint word (Table 9-4). -/
def ew (e : W64) (hi lo : Nat) : Nat := bits e.toNat hi lo

/-- A fault of a port names the port and its position: the element of a pattern, the tokens taken of a channel (R297). -/
def chanFault {α : Type} (cause n : Nat) : Act α := fun s =>
  let p := portAt s.cx n
  let pos := match p.bind with
    | .pattern d => patIndex d p.pos
    | _ => (p.pos % 2 ^ 32, 0, 0)
  .error (.trap { faultAt cause 0 with port := some n, pos := some pos } none) s

/-- A token leaves an endpoint for its port, which acquires what its send released (R170): one that an earlier binding kept, else the
first of the channel, whose tag the stream's structure goes on from. -/
def takeEndp (n key : Nat) (t : Token) : Act Unit := do
  let old ← view (fun s => !(endpAt s key).kept.isEmpty)
  upd (fun s0 =>
    let s := l1Drop s0 (coreOf s0.cur)
    if old then updEndp s key (fun e => { e with kept := e.kept.drop 1 })
    else
      let s1 := updEndp s key (fun e => { e with buf := e.buf.drop 1 })
      if isStop t.tag then stopTaken s1 (.endp key) else s1)
  updPort n (fun p => { p with last := if old then p.last else some t.tag, pos := p.pos + 1,
                               done := p.done || t.tag == tDONE, thr := if isStop t.tag then none else p.thr })

/-- Ports of the current context that follow a port (R294). -/
def followers (c : Ctx) (n : Nat) : List Nat :=
  (c.ports.filter (fun p => match p.2.bind with
    | .channel e _ => ew e 4 4 == 0 && ew e 14 14 == 1 && ew e 19 16 == n
    | _ => false)).map (·.1)

/-- The tag of the data tokens of an endpoint's kind. -/
def kindTag (kind : Nat) : BitVec 4 := if kind = 0 then tCOORD else if kind = 1 then tREF else tVAL

/-- Takes what a pop takes silently and gives the token at the head that the pop would deliver; none when the binding is
exhausted (R289, R294). fuel counts the tokens looked at. -/
def chanSettle (n key : Nat) (e : W64) : Nat → Act (Option Token)
  | 0 => waitKeep (.port n)
  | f + 1 => do
    let p ← view (fun s => portAt s.cx n)
    if p.done then pure none
    else
      let x ← view (fun s => endpAt s key)
      match (x.kept ++ x.buf).head? with
      | none => waitKeep (.port n)
      | some t =>
        if x.kept.isEmpty && !streamOk (ew e 22 20) p.last t.tag then chanFault cQFAULT n
        else if t.tag = tDONE then pure (some t)
        else if isStop t.tag then
          if p.debt ≠ 0 then chanFault cQFAULT n
          else if ew e 7 7 = 1 then pure (some t)
          else
            takeEndp n key t
            chanSettle n key e f
        else if t.tag ≠ kindTag (ew e 6 5) then chanFault cQFAULT n
        else if p.debt ≠ 0 then
          takeEndp n key t
          updPort n (fun p => { p with debt := p.debt - 1 })
          chanSettle n key e f
        else
          match p.thr with
          | none => pure (some t)
          | some c =>
            if t.data.ult c then
              takeEndp n key t
              let fs ← view (fun s => followers s.cx n)
              fs.forM (fun m => updPort m (fun p => { p with debt := p.debt + 1 }))
              chanSettle n key e f
            else pure (some t)

/-- The next token of an input channel, left where it is; none when exhausted. -/
def chanPeek (n key : Nat) (e : W64) : Act (Option Token) := do
  needFrontier
  let p ← view (fun s => portAt s.cx n)
  match p.ahead with
  | v :: _ => pure (if (vecTok v).tag = tDONE then none else some (vecTok v))
  | [] =>
    let k ← view (fun s => (endpAt s key).kept.length + (endpAt s key).buf.length)
    let r ← chanSettle n key e (k + 1)
    match r with
    | some t => if t.tag = tDONE then pure none else pure (some t)
    | none => pure none

/-- Pops an input channel: the token delivered, or none when exhausted, which sets EOS. The pop that takes
DONE leaves its tag in LTAG (R239, R289, Table 9-5). A token received acquires what its send released (R170). -/
def chanPop (n key : Nat) (e : W64) : Act (Option Token) := do
  let r ← chanPeek n key e
  upd (fun s => l1Drop s (coreOf s.cur))
  let kept ← view (fun s => !(portAt s.cx n).ahead.isEmpty)
  match r with
  | none =>
    let d ← view (fun s => (portAt s.cx n).done)
    if d then pure ()
    else
      if kept then updPort n (fun p => { p with ahead := p.ahead.drop 1, done := true }) else takeEndp n key tokDone
      updPort n (fun p => { p with ltag := tDONE, popped := p.popped ++ [tokVec tokDone] })
    setEos n
    pure none
  | some t =>
    if kept then updPort n (fun p => { p with ahead := p.ahead.drop 1 }) else takeEndp n key t
    updPort n (fun p => { p with popped := p.popped ++ [tokVec t], ltag := t.tag, cnt := p.cnt + 1 })
    pure (some t)

/-- The value of a delivered token in a G position (R286, R288, R289). -/
def tokVal64 (e : W64) (pol : Nat) (t : Token) : W64 :=
  if isStop t.tag then 0
  else if ew e 6 5 = 2 then widen (ew e 11 8) (ew e 12 12 == 1) (ew e 13 13 == 1) pol t.data.toNat
  else t.data.setWidth 64

/-! ## Pops and pushes (R237-R239) -/

/-- The next element of an input pattern; none when exhausted. It stays unpopped. -/
def patPeek (n : Nat) (d : BitVec 256) : Act (Option Vec) := do
  let p ← view (fun s => portAt s.cx n)
  match p.ahead with
  | v :: _ => pure (some v)
  | [] => if patCount d ≤ p.pos then pure none else do let v ← patRead n d p.pos; pure (some v)

/-- Pops an input pattern. -/
def patPop (n : Nat) (d : BitVec 256) : Act (Option Vec) := do
  let r ← patPeek n d
  match r with
  | none => setEos n; pure none
  | some v =>
    updPort n (fun p => { p with ahead := p.ahead.drop 1, popped := p.popped ++ [v], pos := p.pos + 1, cnt := p.cnt + 1 })
    pure (some v)

/-- A 32-bit value in each lane. -/
def splat (x : W32) : Vec := BitVec.ofNat 512 ((range' 0 16).foldl (fun n i => n + x.toNat * 2 ^ (32 * i)) 0)

/-- What a pop gives: a value for a G position, or 64 bytes for a V position. -/
def popPort (n : Nat) (vec : Bool) : Act (W64 × Vec) := do
  let p ← view (fun s => portAt s.cx n)
  let pol ← view polOf
  let bad : Act (W64 × Vec) := chanFault cQFAULT n
  match p.bind with
  | .unbound => bad
  | .pattern d =>
    if db d 192 192 = 1 then bad
    else if db d 194 194 = 1 && !vec then bad
    else
      let r ← patPop n d
      match r with
      | none => pure (0, 0)
      | some v =>
        if db d 194 194 = 1 then pure (0, v)
        else
          let x := widen (db d 203 200) (db d 196 196 == 1) (db d 195 195 == 1) pol v.toNat
          pure (x, splat (x.setWidth 32))
  | .channel e key =>
    if ew e 4 4 = 1 then bad
    else
      let r ← chanPop n key e
      match r with
      | none => pure (0, 0)
      | some t => let x := tokVal64 e pol t; pure (x, splat (x.setWidth 32))

/-- Sends what a port's hold keeps, as room appears (R291). -/
def flushHold (n key : Nat) : Nat → Act Unit
  | 0 => pure ()
  | f + 1 => do
    let p ← view (fun s => portAt s.cx n)
    match p.hold with
    | [] => pure ()
    | t :: _ =>
      let ok ← view (fun s => hasRoom s (endpDests s key))
      if ok then
        upd (fun s => deliver s (endpDests s key) t)
        updPort n (fun p => { p with hold := p.hold.drop 1 })
        flushHold n key f
      else waitKeep (.port n)

/-- Whether an output binding is exhausted (R239). -/
def outDone (p : Port) : Bool :=
  match p.bind with
  | .pattern d => decide (patCount d ≤ p.pos)
  | .channel _ _ => p.done
  | .unbound => false

/-- A timestamp task begins its commit before its end (R205, R291). -/
def beginCommit : Act Unit := do
  needFrontier
  upd (fun s => publishCtx { s with cx := { s.cx with committing := true } } s.cur)

/-- Room for a token at an output channel: in the channel for a free task, which first publishes (R291); in the hold
for a timestamp task, whose commit begins when its hold is full. -/
def chanRoom (n key : Nat) : Act Unit := do
  let s ← view id
  if isTs s s.cx && !s.cx.committing && decide ((portAt s.cx n).hold.length < 16) then pure ()
  else
    if isTs s s.cx && !s.cx.committing then beginCommit else release
    flushHold n key 16
    let ok ← view (fun s => hasRoom s (endpDests s key))
    if ok then pure () else waitKeep (.port n)

/-- The checks of a push, before the instruction does anything else (R237, R238). vec says whether the destination is a V
position. -/
def pushCheck (n : Nat) (vec : Bool) : Act Unit := do
  let p ← view (fun s => portAt s.cx n)
  let bad : Act Unit := chanFault cQFAULT n
  match p.bind with
  | .unbound => bad
  | .pattern d =>
    if db d 192 192 = 0 then bad
    else if db d 194 194 = 1 && !vec then bad
    else if outDone p then pure ()
    else do let _ ← atElem n d p.pos (patXl d p.pos .wr); pure ()
  | .channel e key =>
    if ew e 4 4 = 0 then bad
    else if outDone p then pure ()
    else chanRoom n key

/-- Emits a token through an output endpoint, by its route's filter, or into the hold of a timestamp task (R290, R291). -/
def emitTok (n key : Nat) (t : Token) : Act Unit := do
  let s ← view id
  let c := (endpAt s key).cfg
  let t' := mordToken (mordant s (key / 16) (bits c 4 4) (bits c 8 5)) t
  if isTs s s.cx && !s.cx.committing then updPort n (fun p => { p with hold := p.hold ++ [t'] })
  else upd (fun s => deliver s (endpDests s key) t')
  markExposed
  updPort n (fun p => { p with done := p.done || t.tag == tDONE })

/-- The push of a value, at retirement (R286, R290). -/
def pushPort (n : Nat) (v : W64) (vv : Vec) : Act Unit := do
  let p ← view (fun s => portAt s.cx n)
  let pol ← view polOf
  if outDone p then setEos n
  else
    match p.bind with
    | .pattern d =>
      let bs := if db d 194 194 = 1 then bytesOfNat 64 vv.toNat
        else bytesOfNat (patSize d) (narrow (db d 203 200) (db d 196 196 == 1) pol v.toNat)
      atElem n d p.pos (do
        let x ← patXl d p.pos .wr
        storeBytes x.va x.loc bs none x.o)
      updPort n (fun p => { p with pos := p.pos + 1, cnt := p.cnt + 1 })
    | .channel e key =>
      let data := if ew e 6 5 = 2 then narrow (ew e 11 8) (ew e 12 12 == 1) pol v.toNat else v.toNat % 2 ^ 32
      emitTok n key { tag := kindTag (ew e 6 5), data := BitVec.ofNat 32 data }
      updPort n (fun p => { p with cnt := p.cnt + 1 })
    | .unbound => pure ()

/-! ## Registers (R224, R242) -/

/-- The physical register of a windowed register of the current frame (R242). -/
def physOf (c : Ctx) (i : Nat) : Nat := (c.fb.toNat + i - 8) % 256

/-- A g register as it reads. -/
def gReg (c : Ctx) (i : Nat) : W64 :=
  if i = 0 then 0 else if i < 8 then getD c.g 0 i else getD c.phys 0 (physOf c i)

/-- A write of a g register; g0 discards it. -/
def setG (c : Ctx) (i : Nat) (v : W64) : Ctx :=
  if i = 0 then c
  else if i < 8 then { c with g := setD c.g 0 i v }
  else { c with phys := setD c.phys 0 (physOf c i) v }

/-- Whether a field names a register outside the frame (R242). -/
def outOfFrame (c : Ctx) (x : BitVec 6) : Bool :=
  decide (8 ≤ x.toNat) && decide (x.toNat < 48) && decide (c.size ≤ x.toNat - 8)

/-- rd of a G position (R256). -/
def rdG (x : BitVec 6) : Act W64 := do
  let c ← view (·.cx)
  if isQ x then do let r ← popPort (x.toNat - 48) false; pure r.1
  else if outOfFrame c x then trapAt cILLEGAL 0
  else pure (gReg c x.toNat)

/-- rd of a V position. -/
def rdV (x : BitVec 6) : Act Vec := do
  let c ← view (·.cx)
  if isQ x then do let r ← popPort (x.toNat - 48) true; pure r.2 else pure (getD c.v 0 x.toNat)

/-- What must hold of a G destination before the instruction acts (R237, R242). -/
def checkG (x : BitVec 6) : Act Unit := do
  let c ← view (·.cx)
  if isQ x then pushCheck (x.toNat - 48) false
  else if outOfFrame c x then trapAt cILLEGAL 0
  else pure ()

/-- What must hold of a V destination. -/
def checkV (x : BitVec 6) : Act Unit := if isQ x then pushCheck (x.toNat - 48) true else pure ()

/-- wr of a G destination. -/
def wrG (x : BitVec 6) (v : W64) : Act Unit :=
  if isQ x then pushPort (x.toNat - 48) v (splat (v.setWidth 32))
  else upd (fun s => { s with cx := setG s.cx x.toNat v })

/-- wr of a V destination, whole. A scalar binding takes lane 0 (R286). -/
def wrV (x : BitVec 6) (v : Vec) : Act Unit :=
  if isQ x then pushPort (x.toNat - 48) ((v.setWidth 32).setWidth 64) v
  else upd (fun s => { s with cx := { s.cx with v := setD s.cx.v 0 x.toNat v } })

/-- A predicate; p0 reads all ones. -/
def pReg (c : Ctx) (n : Nat) : BitVec 16 := if n = 0 then BitVec.allOnes 16 else getD c.p 0 n

/-- A write of a predicate. -/
def setP (c : Ctx) (n : Nat) (v : BitVec 16) : Ctx := if n = 0 then c else { c with p := setD c.p 0 n v }

/-- A codebook register. -/
def kReg (c : Ctx) (n : Nat) : BitVec 256 := getD c.k 0 n

/-- Does something once for an instruction that may have to wait for room at its destination port after it: on a second
execution its result stands (R240). -/
def once (x : Act W64) : Act W64 := do
  let g ← view (·.cx.got)
  match g with
  | some v => pure v
  | none =>
    let v ← x
    upd (fun s => { s with cx := { s.cx with got := some v } })
    pure v

/-! ## Immediates (R230, R232) -/

/-- The immediate of an I word: sext(imm14), or the 40-bit immediate of an X pair. -/
def immOf (o : OpI) : W64 := if o.has then (o.immh ++ o.imm).signExtend 64 else o.imm.signExtend 64

/-- The offset of an M word, times the access size. -/
def offOf (o : OpM) (size : Nat) : W64 :=
  (if o.has then (o.offh ++ o.off).signExtend 64 else o.off.signExtend 64) * BitVec.ofNat 64 size

/-- XIMM, sign-extended, times a size. -/
def ximmOf (x : XW) (size : Nat) : W64 := x.ximm.signExtend 64 * BitVec.ofNat 64 size

/-- sext({imm20, 14 zero bits}) (R236). -/
def upper (imm : BitVec 20) : W64 := (imm ++ (0 : BitVec 14)).signExtend 64

end Sys2Proof.Machine
end

