-- ==== Sys2Proof/Machine/Flags.lean ====
section
/-! DEFINITION. Predicates and lanes, comparisons, the status words, and which prefix fields a form accepts (spec/08
R226-R233, spec/09 R257, spec/10 R299). -/

namespace Sys2Proof.Machine
open Sys2Proof

/-! ## Predicates (R231) -/

/-- The governing bits of an instruction: its predicate, inverted under NEG. -/
def govern (s : State) (p : BitVec 3) (neg : Bool) : BitVec 16 :=
  if neg then ~~~ pReg s.cx p.toNat else pReg s.cx p.toNat

/-- A scalar instruction's test: bit 0. -/
def on0 (s : State) (p : BitVec 3) (neg : Bool) : Bool := (govern s p neg).getLsbD 0

/-- A scalar R word. -/
def runR (ok : Bool) (o : OpR) (body : Act Flow) (s : State) : Host.Outcome State Fault Refusal :=
  runInsn ok (on0 s o.p o.x.neg) (lenX o.x.has) body s

/-- A word that acts lane by lane: it executes when any lane is on. The body is given the lanes. -/
def runV (ok : Bool) (o : OpR) (body : BitVec 16 → Act Flow) (s : State) : Host.Outcome State Fault Refusal :=
  let g := govern s o.p o.x.neg
  runInsn ok (g != 0) (lenX o.x.has) (body g) s

/-- A word that is not predicated. -/
def runU (ok has : Bool) (body : Act Flow) (s : State) : Host.Outcome State Fault Refusal :=
  runInsn ok true (lenX has) body s

/-! ## Prefix fields (R232) -/

/-- Only NEG. -/
def okNeg (x : XW) : Bool := x.rm == 0 && x.scp == 0 && x.ord == 0 && x.ximm == 0
/-- NEG and XIMM. -/
def okXimm (x : XW) : Bool := x.rm == 0 && x.scp == 0 && x.ord == 0
/-- A scope code: 0 to 5. -/
def scpOk (x : XW) : Bool := decide (x.scp.toNat ≤ 5)
/-- NEG and SCP. -/
def okScp (x : XW) : Bool := x.rm == 0 && x.ord == 0 && x.ximm == 0 && scpOk x
/-- NEG and XIMM[0], the .S form (Tables 11-1, 11-5). -/
def okS (x : XW) : Bool := x.rm == 0 && x.scp == 0 && x.ord == 0 && decide (x.ximm.toNat ≤ 1)
/-- NEG and RM. -/
def okRm (x : XW) : Bool := x.scp == 0 && x.ord == 0 && x.ximm == 0 && decide (x.rm.toNat ≤ 4)

/-- The scope a code names, 1 CORE to 5 SYSTEM; a default for 0 (Table 8-6). -/
def scopeOf (x : XW) (dflt : Nat) : Nat := if x.scp.toNat = 0 then dflt else x.scp.toNat

/-! ## Comparisons (R257, R263) -/

/-- A truth value as a word. -/
def truth (b : Bool) : W64 := if b then 1 else 0
def ltS (a b : W64) : Bool := a.slt b
def ltU (a b : W64) : Bool := a.ult b

/-! ## Lanes -/

/-- Lane i of a vector. -/
def lane (v : Vec) (i : Nat) : W32 := v.extractLsb' (32 * i) 32

/-- A vector from its lanes. -/
def ofLanes (f : Nat → W32) : Vec :=
  BitVec.ofNat 512 ((range' 0 16).foldl (fun n i => n + (f i).toNat * 2 ^ (32 * i)) 0)

/-- The lanes of one vector where they are on, of another elsewhere. -/
def merge (on : BitVec 16) (new old : Vec) : Vec := ofLanes (fun i => if on.getLsbD i then lane new i else lane old i)

/-- A predicate from its bits. -/
def ofBits (f : Nat → Bool) : BitVec 16 :=
  BitVec.ofNat 16 ((range' 0 16).foldl (fun n i => if f i then n + 2 ^ i else n) 0)

/-- The lanes that a V destination keeps where a lane is off: a register's own; for a port, to which the spec gives none,
free values (DESIGN CHOICE, log 22). -/
def oldLanes (d : BitVec 6) (g : BitVec 16) : Act Vec := fun s =>
  if !isQ d then .ok (getD s.cx.v 0 d.toNat) s
  else if g = BitVec.allOnes 16 then .ok 0 s
  else .ok (ofLanes (fun i => (Config.freeWord (s.draws + i)).setWidth 32)) { s with draws := s.draws + 16 }

/-- NEG, SCP and XIMM[0]. -/
def okSScp (x : XW) : Bool := x.rm == 0 && x.ord == 0 && scpOk x && decide (x.ximm.toNat ≤ 1)
/-- NEG, SCP and XIMM. -/
def okXimmScp (x : XW) : Bool := x.rm == 0 && x.ord == 0 && scpOk x

/-! ## System registers (R226-R228) -/

/-- `status` (Table 8-3). -/
def statusView (s : State) : W64 :=
  let b (x : Bool) (n : Nat) : Nat := if x then 2 ^ n else 0
  let (csc, prio) := match s.cx.task with
    | some t => (t.csc, t.prio)
    | none => (0, 0)
  BitVec.ofNat 64 (polOf s + b s.cx.mode 4 + b s.cx.pmode 5 + b (isFront s s.cx) 6 + b (isSpec s s.cx) 7 + csc * 2 ^ 8 +
    prio * 2 ^ 16)

/-- Whether a port is bound, and for output. -/
def portBound (p : Port) : Bool := p.bind != .unbound
def portOut (p : Port) : Bool :=
  match p.bind with
  | .pattern d => db d 192 192 == 1
  | .channel e _ => ew e 4 4 == 1
  | .unbound => false

/-- `qstat` (Table 8-4). -/
def qstatView (c : Ctx) : W64 :=
  let f (t : Port → Bool) : Nat := (range' 0 16).foldl (fun n i => if t (portAt c i) then n + 2 ^ i else n) 0
  BitVec.ofNat 64 (f (·.eos) + f portBound * 2 ^ 16 + f portOut * 2 ^ 32)

/-- What a system register reads; none for a number that Table 8-2 does not list. -/
def sysView (s : State) (n : Nat) : Option W64 :=
  let tid : Tid := match s.cx.task with
    | some t => t.tid
    | none => { dom := 0, ts := 0, seq := 0 }
  match n with
  | 0 => some tid.ts
  | 1 => some (tid.seq.setWidth 64)
  | 2 => some (BitVec.ofNat 64 tid.dom)
  | 3 => some (frontVal s tid.dom)
  | 4 => some s.cx.fb
  | 5 => some s.cx.bsp
  | 6 => some s.cx.bsl
  | 7 => some (statusView s)
  | 8 => some (qstatView s.cx)
  | 9 => some s.cx.cause
  | 10 => some s.cx.epc
  | 11 => some (s.cx.fault.setWidth 64)
  | 12 => some (BitVec.ofNat 64 s.cycle)
  | 13 => some (BitVec.ofNat 64 (ctxId s s.cur))
  | 16 => some ((getD s.cx.lc 0 0).setWidth 64)
  | 17 => some ((getD s.cx.lc 0 1).setWidth 64)
  | 18 => some ((getD s.cx.lc 0 2).setWidth 64)
  | _ => none

end Sys2Proof.Machine
end

