-- ==== Sys2Proof/Machine/Alu.lean ====
section
/-! DEFINITION. Integer and address instructions, bit fields (spec/09 R257-R261, spec/08 R236). -/

namespace Sys2Proof.Machine
open Sys2Proof

/-- d := f a b (R257). -/
def alu2 (o : OpR) (f : W64 → W64 → W64) : State → Host.Outcome State Fault Refusal :=
  runR (okNeg o.x) o (do
    checkG o.d
    let a ← rdG o.a
    let b ← rdG o.b
    wrG o.d (f a b)
    pure .next)

/-- d := f a, with no second operand or with field b as a number (R257, R259). -/
def alu1 (o : OpR) (f : W64 → W64) : State → Host.Outcome State Fault Refusal :=
  runR (okNeg o.x) o (do
    checkG o.d
    let a ← rdG o.a
    wrG o.d (f a)
    pure .next)

/-- d := f a imm (R260). -/
def aluI (o : OpI) (f : W64 → W64 → W64) : State → Host.Outcome State Fault Refusal :=
  runU true o.has (do
    checkG o.d
    let a ← rdG o.a
    wrG o.d (f a (immOf o))
    pure .next)

/-- The quotient towards zero, signed and unsigned (R257, R258). -/
def divS (a b : W64) : W64 := if b = 0 then BitVec.allOnes 64 else BitVec.ofInt 64 (a.toInt.tdiv b.toInt)
def divU (a b : W64) : W64 := if b = 0 then BitVec.allOnes 64 else a / b
/-- a − b × quotient (R257, R258). -/
def remS (a b : W64) : W64 := if b = 0 then a else BitVec.ofInt 64 (a.toInt.tmod b.toInt)
def remU (a b : W64) : W64 := if b = 0 then a else a % b

/-- The number of leading zero bits of a 64-bit value; 64 for 0. -/
def clz (a : W64) : Nat := if a = 0 then 64 else 63 - Nat.log2 a.toNat
/-- The number of trailing zero bits; 64 for 0. -/
def ctz (a : W64) : Nat := ((range' 0 64).find? (fun i => a.getLsbD i)).getD 64

def execAdd (o : OpR) : State → Host.Outcome State Fault Refusal := alu2 o (fun a b => a + b)
def execSub (o : OpR) : State → Host.Outcome State Fault Refusal := alu2 o (fun a b => a - b)
def execMul (o : OpR) : State → Host.Outcome State Fault Refusal := alu2 o (fun a b => a * b)
def execMulhi (o : OpR) : State → Host.Outcome State Fault Refusal :=
  alu2 o (fun a b => BitVec.ofInt 64 (a.toInt * b.toInt / 2 ^ 64))
def execMulhiu (o : OpR) : State → Host.Outcome State Fault Refusal :=
  alu2 o (fun a b => BitVec.ofNat 64 (a.toNat * b.toNat / 2 ^ 64))
def execDiv (o : OpR) : State → Host.Outcome State Fault Refusal := alu2 o divS
def execDivu (o : OpR) : State → Host.Outcome State Fault Refusal := alu2 o divU
def execRem (o : OpR) : State → Host.Outcome State Fault Refusal := alu2 o remS
def execRemu (o : OpR) : State → Host.Outcome State Fault Refusal := alu2 o remU
def execAnd (o : OpR) : State → Host.Outcome State Fault Refusal := alu2 o (fun a b => a &&& b)
def execOr (o : OpR) : State → Host.Outcome State Fault Refusal := alu2 o (fun a b => a ||| b)
def execXor (o : OpR) : State → Host.Outcome State Fault Refusal := alu2 o (fun a b => a ^^^ b)
def execShl (o : OpR) : State → Host.Outcome State Fault Refusal := alu2 o (fun a b => a <<< (b.toNat % 64))
def execShr (o : OpR) : State → Host.Outcome State Fault Refusal := alu2 o (fun a b => a >>> (b.toNat % 64))
def execSra (o : OpR) : State → Host.Outcome State Fault Refusal := alu2 o (fun a b => a.sshiftRight (b.toNat % 64))
def execShli (o : OpR) : State → Host.Outcome State Fault Refusal := alu1 o (fun a => a <<< o.b.toNat)
def execShri (o : OpR) : State → Host.Outcome State Fault Refusal := alu1 o (fun a => a >>> o.b.toNat)
def execSrai (o : OpR) : State → Host.Outcome State Fault Refusal := alu1 o (fun a => a.sshiftRight o.b.toNat)
def execSlt (o : OpR) : State → Host.Outcome State Fault Refusal := alu2 o (fun a b => truth (ltS a b))
def execSltu (o : OpR) : State → Host.Outcome State Fault Refusal := alu2 o (fun a b => truth (ltU a b))
def execMin (o : OpR) : State → Host.Outcome State Fault Refusal := alu2 o (fun a b => if ltS b a then b else a)
def execMax (o : OpR) : State → Host.Outcome State Fault Refusal := alu2 o (fun a b => if ltS a b then b else a)
def execMinu (o : OpR) : State → Host.Outcome State Fault Refusal := alu2 o (fun a b => if ltU b a then b else a)
def execMaxu (o : OpR) : State → Host.Outcome State Fault Refusal := alu2 o (fun a b => if ltU a b then b else a)

/-- SEL always executes; its predicate selects (R231, R257). -/
def execSel (o : OpR) : State → Host.Outcome State Fault Refusal :=
  runU (okNeg o.x) o.x.has (do
    checkG o.d
    let k ← view (fun s => on0 s o.p o.x.neg)
    let a ← rdG o.a
    let b ← rdG o.b
    wrG o.d (if k then a else b)
    pure .next)

def execLea0 (o : OpR) : State → Host.Outcome State Fault Refusal := alu2 o (fun a b => a + b)
def execLea1 (o : OpR) : State → Host.Outcome State Fault Refusal := alu2 o (fun a b => a + (b <<< 1))
def execLea2 (o : OpR) : State → Host.Outcome State Fault Refusal := alu2 o (fun a b => a + (b <<< 2))
def execLea3 (o : OpR) : State → Host.Outcome State Fault Refusal := alu2 o (fun a b => a + (b <<< 3))
def execClz (o : OpR) : State → Host.Outcome State Fault Refusal := alu1 o (fun a => BitVec.ofNat 64 (clz a))
def execCtz (o : OpR) : State → Host.Outcome State Fault Refusal := alu1 o (fun a => BitVec.ofNat 64 (ctz a))
def execPopc (o : OpR) : State → Host.Outcome State Fault Refusal := alu1 o (fun a => BitVec.ofNat 64 (popc 64 a.toNat))
def execSxtB (o : OpR) : State → Host.Outcome State Fault Refusal := alu1 o (fun a => (a.setWidth 8).signExtend 64)
def execSxtH (o : OpR) : State → Host.Outcome State Fault Refusal := alu1 o (fun a => (a.setWidth 16).signExtend 64)
def execSxtW (o : OpR) : State → Host.Outcome State Fault Refusal := alu1 o (fun a => (a.setWidth 32).signExtend 64)
def execZxtB (o : OpR) : State → Host.Outcome State Fault Refusal := alu1 o (fun a => (a.setWidth 8).setWidth 64)
def execZxtH (o : OpR) : State → Host.Outcome State Fault Refusal := alu1 o (fun a => (a.setWidth 16).setWidth 64)
def execZxtW (o : OpR) : State → Host.Outcome State Fault Refusal := alu1 o (fun a => (a.setWidth 32).setWidth 64)

def execAddi (o : OpI) : State → Host.Outcome State Fault Refusal := aluI o (fun a i => a + i)
def execAndi (o : OpI) : State → Host.Outcome State Fault Refusal := aluI o (fun a i => a &&& i)
def execOri (o : OpI) : State → Host.Outcome State Fault Refusal := aluI o (fun a i => a ||| i)
def execXori (o : OpI) : State → Host.Outcome State Fault Refusal := aluI o (fun a i => a ^^^ i)
def execSlti (o : OpI) : State → Host.Outcome State Fault Refusal := aluI o (fun a i => truth (ltS a i))

/-- Whether a bit field lies within 64 bits (R261). -/
def bfOk (o : OpBf) : Bool := decide (o.pos.toNat + o.len.toNat + 1 ≤ 64)

/-- a[pos+len-1 : pos]. -/
def bfGet (o : OpBf) (a : W64) : Nat := a.toNat / 2 ^ o.pos.toNat % 2 ^ (o.len.toNat + 1)

def execBfx (o : OpBf) : State → Host.Outcome State Fault Refusal :=
  runU (bfOk o) false (do
    checkG o.d
    let a ← rdG o.a
    wrG o.d (BitVec.ofNat 64 (bfGet o a))
    pure .next)

def execBfxS (o : OpBf) : State → Host.Outcome State Fault Refusal :=
  runU (bfOk o) false (do
    checkG o.d
    let a ← rdG o.a
    wrG o.d (BitVec.ofInt 64 (sgn (o.len.toNat + 1) (bfGet o a)))
    pure .next)

/-- BFI: d is also a source, so no port (R225, R261). -/
def execBfi (o : OpBf) : State → Host.Outcome State Fault Refusal :=
  runU (bfOk o && !isQ o.d) false (do
    checkG o.d
    let old ← rdG o.d
    let a ← rdG o.a
    let m : W64 := BitVec.ofNat 64 ((2 ^ (o.len.toNat + 1) - 1) * 2 ^ o.pos.toNat)
    wrG o.d ((old &&& ~~~ m) ||| ((a <<< o.pos.toNat) &&& m))
    pure .next)

/-- LIH (R236). -/
def execLih (o : OpU) : State → Host.Outcome State Fault Refusal :=
  runU true false (do
    checkG o.d
    wrG o.d (upper o.imm)
    pure .next)

/-- ADDPC (R236). -/
def execAddpc (o : OpU) : State → Host.Outcome State Fault Refusal :=
  runU true false (do
    checkG o.d
    let pc ← view (·.cx.pc)
    wrG o.d (pc + upper o.imm)
    pure .next)

end Sys2Proof.Machine
end

