-- ==== Sys2Proof/Machine/Memory.lean ====
section
/-! DEFINITION. Loads, stores, full/empty accesses, prefetch, vector memory access, BMV stores and loads (spec/09
R267-R277). -/

namespace Sys2Proof.Machine
open Sys2Proof

/-! ## Scalar loads and stores (R267, R268) -/

/-- LD and LDS of a size. -/
def loadM (o : OpM) (sp : Bool) (n : Nat) (s : State) : Host.Outcome State Fault Refusal :=
  runInsn true (on0 s o.p o.neg) (lenX o.has) (do
    checkG o.t
    let a ← rdG o.a
    let v ← loadScalar sp (a + offOf o n) n
    wrG o.t (BitVec.ofNat 64 v)
    pure .next) s

/-- ST and STS of a size; the pops are t, then a. -/
def storeM (o : OpM) (sp : Bool) (n : Nat) (s : State) : Host.Outcome State Fault Refusal :=
  runInsn true (on0 s o.p o.neg) (lenX o.has) (do
    let t ← rdG o.t
    let a ← rdG o.a
    storeScalar sp (a + offOf o n) n t) s

def execLdB (o : OpM) : State → Host.Outcome State Fault Refusal := loadM o false 1
def execLdH (o : OpM) : State → Host.Outcome State Fault Refusal := loadM o false 2
def execLdW (o : OpM) : State → Host.Outcome State Fault Refusal := loadM o false 4
def execLdD (o : OpM) : State → Host.Outcome State Fault Refusal := loadM o false 8
def execStB (o : OpM) : State → Host.Outcome State Fault Refusal := storeM o false 1
def execStH (o : OpM) : State → Host.Outcome State Fault Refusal := storeM o false 2
def execStW (o : OpM) : State → Host.Outcome State Fault Refusal := storeM o false 4
def execStD (o : OpM) : State → Host.Outcome State Fault Refusal := storeM o false 8
def execLdsB (o : OpM) : State → Host.Outcome State Fault Refusal := loadM o true 1
def execLdsH (o : OpM) : State → Host.Outcome State Fault Refusal := loadM o true 2
def execLdsW (o : OpM) : State → Host.Outcome State Fault Refusal := loadM o true 4
def execLdsD (o : OpM) : State → Host.Outcome State Fault Refusal := loadM o true 8
def execStsB (o : OpM) : State → Host.Outcome State Fault Refusal := storeM o true 1
def execStsH (o : OpM) : State → Host.Outcome State Fault Refusal := storeM o true 2
def execStsW (o : OpM) : State → Host.Outcome State Fault Refusal := storeM o true 4
def execStsD (o : OpM) : State → Host.Outcome State Fault Refusal := storeM o true 8

/-! ## Full/empty accesses (R269-R271) -/

/-- Whether a full/empty access may name an S-address: a word, or the first byte of a buffer (R46). -/
def tagFirst (s : State) (a : Nat) : Bool :=
  a % 8 == 0 && (match tagKey s a with
    | .word _ => true
    | .buffer c n _ => decide (a % 0x8000 % bufSize s c n = 0))

/-- The address of a full/empty access, checked, with its tag (R35, R46). -/
def tagAccess (a : W64) (x : XW) : Act (Xl × TagKey) := do
  let ea := a + ximmOf x 8
  let s ← view id
  let l ← orTrap (checkPlace s ea (tagFirst s ea.toNat) s.cx.mode)
  pure ({ va := ea, t := 0, pa := l, loc := l, c := false, o := (srgn s l).1, p := false, hp := false }, tagKey s l)

/-- The task's own buffered change of a tag (R271). -/
def ownTagChange (c : Ctx) (a : Nat) : Option Bool :=
  (c.sb.find? (fun l => l.line = a / 64)).bind (fun l => look l.tags (a % 64))

/-- A timestamp task's access to a line of an ORD region is recorded (R19, R201). -/
def noteOrdered (x : Xl) (wr : Bool) : Act Unit := do
  let ts ← view (fun s => isTs s s.cx)
  if ts && x.o then ordered (x.loc / 64) wr else pure ()

/-- LDF and LDF.C wait (R48): registered in the tag's wait table, or, where that is full, until a retry, in its turn at port M, after
what the context has sent there (R38, R41, R53). A task whose own buffered change empties the tag retries too: its own view alone
decides. -/
def tagWait (x : Xl) (k : TagKey) (consume : Bool) : Act Unit := fun s0 =>
  let s := portTurn (drainPosted s0 s0.cur (x.loc / 64)) false x.loc
  if (ownTagChange s.cx x.loc).isSome || decide (16 ≤ (nodeAt s (nodeKey k)).waiters.length) then
    .error (.wait (.tagRetry (s.cycle + 64)) none) s
  else
    .error (.wait (.tag x.loc consume) (some
      (updNode s (nodeKey k) (fun n => { n with waiters := n.waiters ++ [(tagNum k, s.cur)] })))) s

/-- An LDF.C that traps has no effect at all, also where its word was taken for it while it waited: the tag is full again, unless what has
filled it since has made it so (R237, R240). -/
def ldfUndone (o : OpR) (body : Act Flow) : Act Flow := fun s =>
  match body s, s.cx.got with
  | .error (.trap f none) s1, some _ =>
    match ((do let a ← rdG o.a; tagAccess a o.x) : Act (Xl × TagKey)) s with
    | .ok r _ => .error (.trap f (some (setTag s r.2 true))) s1
    | .error _ _ => .error (.trap f none) s1
  | r, _ => r

/-- LDF and its consuming form. -/
def execLdfOf (o : OpR) (consume : Bool) : State → Host.Outcome State Fault Refusal :=
  runR (okXimmScp o.x) o ((if consume then ldfUndone o else id) (do
    checkG o.d
    let a ← rdG o.a
    let (x, k) ← tagAccess a o.x
    if consume then needFrontier else pure ()
    noteOrdered x consume
    let got ← view (·.cx.got)
    let bs ← (match got with
      | some v => loadOver x 8 (fun _ => pure (bytesOfNat 8 v.toNat))
      | none => do
        let full ← view (fun s => ownTag s x.loc)
        if full then pure () else tagWait x k consume
        let bs ← loadBytes x 8 (a + ximmOf o.x 8)
        let own ← view (fun s => ownTagChange s.cx x.loc)
        if !consume then pure ()
        else if own.isSome then storeBytes x.va x.loc [] (some false) x.o
        else upd (fun s => setTag s k false)
        pure bs)
    if consume then markExposed else pure ()
    acquire (scopeOf o.x 4)
    wrG o.d (BitVec.ofNat 64 (natOfBytes bs))
    pure .next))

def execLdf (o : OpR) : State → Host.Outcome State Fault Refusal := execLdfOf o false
def execLdfC (o : OpR) : State → Host.Outcome State Fault Refusal := execLdfOf o true

/-- STE: the context's stores, then its 8 bytes, then the tag full; in a timestamp task buffered with its stores. -/
def execSte (o : OpR) : State → Host.Outcome State Fault Refusal :=
  runR (okXimmScp o.x) o (do
    let b ← rdG o.b
    let a ← rdG o.a
    let (x, k) ← tagAccess a o.x
    let ts ← view (fun s => isTs s s.cx)
    if ts then storeBytes x.va x.loc (bytesOfNat 8 b.toNat) (some true) x.o
    else
      releaseAt (scopeOf o.x 4)
      upd (fun s => portTurn (drainPosted s s.cur (x.loc / 64)) false x.loc)
      upd (fun s => setTag (homeWrite s x.loc (bytesOfNat 8 b.toNat)) k true)
    markExposed
    pure .next)

/-- FESET. A free task's comes to its bank after what the context has sent there (R38, R41, R280). -/
def feset (o : OpR) (full : Bool) : State → Host.Outcome State Fault Refusal :=
  runR (okXimm o.x) o (do
    let a ← rdG o.a
    let (x, k) ← tagAccess a o.x
    let ts ← view (fun s => isTs s s.cx)
    if ts then storeBytes x.va x.loc [] (some full) x.o
    else upd (fun s => setTag (portTurn (drainPosted s s.cur (x.loc / 64)) false x.loc) k full)
    markExposed
    pure .next)

def execFesetF (o : OpR) : State → Host.Outcome State Fault Refusal := feset o true
def execFesetE (o : OpR) : State → Host.Outcome State Fault Refusal := feset o false

def execFeqry (o : OpR) : State → Host.Outcome State Fault Refusal :=
  runR (okXimm o.x) o (do
    checkG o.d
    let a ← rdG o.a
    let (x, _) ← tagAccess a o.x
    noteOrdered x false
    let full ← view (fun s => ownTag s x.loc)
    wrG o.d (truth full)
    pure .next)

/-! ## Prefetch (R274) -/

/-- Brings a line into the core's L1, after the context's posted atomics to it (R280); a fault drops it. -/
def prefetch (ea : W64) : Act Unit := fun s =>
  match translate ea .rd 1 1 false s with
  | .error (.trap _ _) _ => .ok () s
  | .error e s' => .error e s'
  | .ok x s1 =>
    match hostGate x ea s1 with
    | .error (.trap _ _) _ => .ok () s
    | .error e s' => .error e s'
    | .ok _ s0 =>
      let s2 := drainPosted s0 s0.cur (x.loc / 64)
      if !x.c || poisoned s2 (x.loc / 64 * 64) 64 then .ok () s2
      else .ok () (l1Read s2 (coreOf s2.cur) { x with loc := x.loc / 64 * 64 } 64).2

def execPref (o : OpR) : State → Host.Outcome State Fault Refusal :=
  runR (okXimm o.x) o (do
    let a ← rdG o.a
    prefetch (a + ximmOf o.x 64)
    pure .next)

/-- PREF.S: no access, no effect. -/
def execPrefS (o : OpR) : State → Host.Outcome State Fault Refusal :=
  runR (okXimm o.x) o (do
    let _ ← rdG o.a
    pure .next)

/-! ## Vectors (R272, R273) -/

/-- Reads the lanes that are on of 64 bytes. -/
def loadLanes (x : Xl) (ea : W64) (g : BitVec 16) : Nat → List W32 → Act (List W32)
  | 0, acc => pure acc
  | n + 1, acc => do
    let v ← if g.getLsbD n then do
        let bs ← loadAt x (4 * n) 4 (ea + BitVec.ofNat 64 (4 * n))
        pure (BitVec.ofNat 32 (natOfBytes bs))
      else pure 0
    loadLanes x ea g n (v :: acc)

/-- A vector of a list of lanes. -/
def vecOf (l : List W32) : Vec := ofLanes (fun i => l.getD i 0)

/-- Stores the lanes that are on to 64 bytes. -/
def storeLanes (x : Xl) (g : BitVec 16) (v : Vec) : Act Unit :=
  (range' 0 16).forM (fun i =>
    if g.getLsbD i then storeBytes (x.va + BitVec.ofNat 64 (4 * i)) (x.loc + 4 * i) (bytesOfNat 4 (lane v i).toNat) none x.o else pure ())

def vldOf (o : OpR) (sp : Bool) : State → Host.Outcome State Fault Refusal :=
  runV (okXimm o.x && isV o.d) o (fun g => do
    checkV o.d
    let a ← rdG o.a
    let ea := a + ximmOf o.x 64
    let x ← xlAny sp ea .rd 64 false
    let l ← loadLanes x ea g 16 []
    let old ← oldLanes o.d g
    wrV o.d (merge g (vecOf l) old)
    pure .next)

def vstOf (o : OpR) (sp : Bool) : State → Host.Outcome State Fault Refusal :=
  runV (okXimm o.x && isV o.b) o (fun g => do
    let b ← rdV o.b
    let a ← rdG o.a
    let x ← xlAny sp (a + ximmOf o.x 64) .wr 64 false
    storeLanes x g b
    pure .next)

def vldstOf (o : OpR) (sp : Bool) : State → Host.Outcome State Fault Refusal :=
  runV (okXimm o.x && isV o.d && isV o.b) o (fun g => do
    checkV o.d
    let a ← rdG o.a
    let b ← rdV o.b
    let ea := a + ximmOf o.x 64
    let x ← xlAny sp ea .rw 64 false
    let l ← loadLanes x ea g 16 []
    storeLanes x g b
    let old ← oldLanes o.d g
    wrV o.d (merge g (vecOf l) old)
    pure .next)

/-- A fault of a lane names it. -/
def atLane {α : Type} (i : Nat) (x : Act α) : Act α := fun s =>
  match x s with
  | .error (.trap f k) s' => .error (.trap { f with lane := some i } k) s'
  | r => r

/-- The address of a gathered or scattered lane. -/
def laneAddr (a : W64) (b : Vec) (i : Nat) : W64 := a + (lane b i).signExtend 64 * 4

def vgathOf (o : OpR) (sp : Bool) : State → Host.Outcome State Fault Refusal :=
  runV (okNeg o.x && isV o.d && isV o.b) o (fun g => do
    checkV o.d
    let a ← rdG o.a
    let b ← rdV o.b
    let l ← (range' 0 16).mapM (fun i => (if g.getLsbD i then atLane i (do
        let ea := laneAddr a b i
        let x ← xlAny sp ea .rd 4 false
        let bs ← loadBytes x 4 ea
        pure (BitVec.ofNat 32 (natOfBytes bs)))
      else pure 0 : Act W32))
    let old ← oldLanes o.d g
    wrV o.d (merge g (vecOf l) old)
    pure .next)

/-- VSCAT: lanes below one that faults stay written (R273). -/
def vscatOf (o : OpR) (sp : Bool) : State → Host.Outcome State Fault Refusal :=
  runV (okNeg o.x && isV o.d && isV o.b) o (fun g => do
    let d ← rdV o.d
    let a ← rdG o.a
    let b ← rdV o.b
    (range' 0 16).forM (fun i =>
      if g.getLsbD i then atLane i (keepOn do
        let x ← xlAny sp (laneAddr a b i) .wr 4 false
        storeBytes x.va x.loc (bytesOfNat 4 (lane d i).toNat) none x.o)
      else pure ())
    pure .next)

def execVld (o : OpR) : State → Host.Outcome State Fault Refusal := vldOf o false
def execVst (o : OpR) : State → Host.Outcome State Fault Refusal := vstOf o false
def execVldst (o : OpR) : State → Host.Outcome State Fault Refusal := vldstOf o false
def execVgath (o : OpR) : State → Host.Outcome State Fault Refusal := vgathOf o false
def execVscat (o : OpR) : State → Host.Outcome State Fault Refusal := vscatOf o false
def execVldS (o : OpR) : State → Host.Outcome State Fault Refusal := vldOf o true
def execVstS (o : OpR) : State → Host.Outcome State Fault Refusal := vstOf o true
def execVldstS (o : OpR) : State → Host.Outcome State Fault Refusal := vldstOf o true
def execVgathS (o : OpR) : State → Host.Outcome State Fault Refusal := vgathOf o true
def execVscatS (o : OpR) : State → Host.Outcome State Fault Refusal := vscatOf o true

/-! ## BMV blocks (R103-R105, R275-R277) -/

/-- Element i of a vector of elements of a size. -/
def vecElem (v : Vec) (size i : Nat) : Nat := v.toNat / 2 ^ (8 * size * i) % 2 ^ (8 * size)

/-- The target of bytes within one line. -/
def xlPart (sp : Bool) (ea : W64) (acc : Acc) (n : Nat) : Act Xl := do
  if sp then xlS ea 1
  else
    let x ← translate ea acc n 1 false
    hostGate x ea
    pure x

/-- Checks n bytes as the context's loads or stores. -/
def spanCheck (sp : Bool) (ea : W64) (acc : Acc) (n : Nat) : Act Unit :=
  (linePieces ea n).forM (fun p => do let _ ← xlPart sp p.1 acc p.2; pure ())

/-- Plain loads and stores of bytes. -/
def spanLoad (sp : Bool) (ea : W64) (n : Nat) : Act (List Byte) := do
  let ls ← (linePieces ea n).mapM (fun p => do
    let x ← xlPart sp p.1 .rd p.2
    loadBytes x p.2 p.1)
  pure ls.flatten
def spanStore (sp : Bool) : W64 → List Byte → List (W64 × Nat) → Act Unit
  | _, _, [] => pure ()
  | _, bs, p :: r => do
    let x ← xlPart sp p.1 .wr p.2
    storeBytes x.va x.loc (bs.take p.2) none x.o
    spanStore sp p.1 (bs.drop p.2) r
def storeSpan (sp : Bool) (ea : W64) (bs : List Byte) : Act Unit := spanStore sp ea bs (linePieces ea bs.length)

/-- A fault of a block at a stream position. -/
def trapPos {α : Type} (cause : Nat) (addr : W64) (pos : Nat) : Act α :=
  halt (.trap { faultAt cause addr with pos := some (pos, 0, 0) } none)

/-- The elements of a chunk that are kept, up to the capacity: values with mask bits, and the index of the first one
beyond it. -/
def bmvScan (h : BmvHdr) (v : Vec) (pos size : Nat) : Nat → Nat → Nat → List (Nat × Nat) → Nat → List (Nat × Nat) × Nat × Nat × Option Nat
  | 0, _, nnz, acc, m => (acc, nnz, m, none)
  | f + 1, i, nnz, acc, m =>
    if h.n ≤ pos + i then (acc, nnz, m, none)
    else if bmvZero h.fmt h.zneg (vecElem v size i) then bmvScan h v pos size f (i + 1) nnz acc m
    else if nnz = h.cap then (acc, nnz, m, some (pos + i))
    else bmvScan h v pos size f (i + 1) (nnz + 1) (acc ++ [(nnz, vecElem v size i)]) (m + 2 ^ i)

/-- STBM: of its faults only BMV_OVERRUN leaves what it has written (R275, R276). -/
def stbmOf (o : OpR) (sp : Bool) : State → Host.Outcome State Fault Refusal :=
  let f := o.x.ximm.toNat
  runR (okXimm o.x && bmvFmt f && isV o.b) o (do
    let blk ← rdG o.a
    let v ← rdV o.b
    let pos := (← rdG o.d).toNat
    let hb ← loadWhole sp blk 16
    let h := bmvHdr hb
    let size := elemSize f
    let l := 64 / size
    if h.n = 0 || h.fmt != f || h.bad then trapAt cCFGBAD blk
    else if pos % l ≠ 0 then trapAt cALIGN blk
    else if h.n ≤ pos then trapAt cCFGBAD blk
    else if pos ≠ 0 && h.ovr then trapPos cBMV blk pos
    else if pos ≠ 0 && decide (h.cap < h.nnz) then trapAt cCFGBAD blk
    else
      let mask := bmvMask h.n
      let vals := bmvVals h.cap size
      spanCheck sp blk .wr (16 + mask + vals)
      let at_ (n : Nat) : W64 := blk + BitVec.ofNat 64 n
      let (els, nnz, m, past) := bmvScan h v pos size l 0 (if pos = 0 then 0 else h.nnz) [] 0
      els.forM (fun e => storeSpan sp (at_ (16 + mask + size * e.1)) (bytesOfNat size e.2))
      storeSpan sp (at_ (16 + pos / 8)) (bytesOfNat (l / 8) m)
      let done := pos / 8 + l / 8
      if past.isSome || decide (h.n ≤ pos + l) then
        storeSpan sp (at_ (16 + done)) (List.replicate (mask - done) 0)
        storeSpan sp (at_ (16 + mask + size * nnz)) (List.replicate (vals - size * nnz) 0)
      else pure ()
      let hdr := h.n + 2 ^ 16 * nnz + 2 ^ 32 * h.cap + 2 ^ 48 * h.fmt + (if h.zneg then 2 ^ 52 else 0) +
        (if past.isSome then 2 ^ 53 else 0)
      storeSpan sp blk (bytesOfNat 8 hdr)
      match past with
      | some e => fun s => .error (.trap { faultAt cBMV blk with pos := some (e, 0, 0) } (some s)) s
      | none => pure .next)

/-- Values of a chunk in place: value by element, from the mask bits. -/
def ldbmElems (bs : List Byte) (vals : List Nat) (pos n : Nat) : Nat → Nat → List (Nat × Nat)
  | 0, _ => []
  | f + 1, i =>
    if pos + i < n && bit (bs.getD ((pos + i) / 8) 0).toNat ((pos + i) % 8) then
      (i, vals.headD 0) :: ldbmElems bs (vals.drop 1) pos n f (i + 1)
    else ldbmElems bs vals pos n f (i + 1)

def ldbmOf (o : OpR) (sp : Bool) : State → Host.Outcome State Fault Refusal :=
  let f := o.x.ximm.toNat
  runR (okXimm o.x && bmvFmt f && isV o.d) o (do
    checkV o.d
    let blk ← rdG o.a
    let pos := (← rdG o.b).toNat
    let hb ← loadWhole sp blk 16
    let h := bmvHdr hb
    let size := elemSize f
    let l := 64 / size
    if h.n = 0 || !bmvFmt h.fmt || decide (h.cap < h.nnz) || decide (h.n < h.nnz) || h.bad then trapAt cCFGBAD blk
    else if h.fmt ≠ f then trapAt cCFGBAD blk
    else if pos % l ≠ 0 then trapAt cALIGN blk
    else if h.n ≤ pos then trapAt cCFGBAD blk
    else
      let mask := bmvMask h.n
      spanCheck sp blk .rd (16 + mask + bmvVals h.cap size)
      let mb ← spanLoad sp (blk + 16) mask
      if maskCount mb (8 * mask) ≠ h.nnz then trapAt cCFGBAD blk
      else
        let j := maskCount mb pos
        let k := maskCount mb (min (pos + l) h.n) - j
        let vb ← spanLoad sp (blk + BitVec.ofNat 64 (16 + mask + size * j)) (size * k)
        let vals := (range' 0 k).map (fun i => natOfBytes ((vb.drop (size * i)).take size))
        wrV o.d (BitVec.ofNat 512 ((ldbmElems mb vals pos h.n l 0).foldl (fun a e => a + e.2 * 2 ^ (8 * size * e.1)) 0))
        pure .next)

def execStbm (o : OpR) : State → Host.Outcome State Fault Refusal := stbmOf o false
def execLdbm (o : OpR) : State → Host.Outcome State Fault Refusal := ldbmOf o false
def execStbmS (o : OpR) : State → Host.Outcome State Fault Refusal := stbmOf o true
def execLdbmS (o : OpR) : State → Host.Outcome State Fault Refusal := ldbmOf o true

end Sys2Proof.Machine
end

