-- ==== Sys2Proof/Machine/Atomic.lean ====
section
/-! DEFINITION. Atomics and fences (spec/09 R278-R283, spec/02 R50-R57). -/

namespace Sys2Proof.Machine
open Sys2Proof

/-- The prefix fields of an atomic: no RM or NEG, a scope only with an order. -/
def okAtom (x : XW) : Bool := x.rm == 0 && !x.neg && scpOk x && (x.scp == 0 || x.ord != 0)

/-- Where an atomic is performed. -/
inductive AtomHome where
  | bank (k : Nat)
  | engine (cl : Nat)
  | peer
  | register (off : Nat)
deriving DecidableEq, Repr

/-- The home of an atomic at a target (Table 2-6); none where it is not performed. -/
def atomHome (s : State) (sp : Bool) (x : Xl) : Option AtomHome :=
  if sp then some (.bank (3 * siteKey x.loc))
  else
    match x.t with
    | 0 => some (.engine (clusterOf (coreOf s.cur)))
    | 1 => if x.c then some (.engine (clusterOf (coreOf s.cur))) else none
    | 2 => some .peer
    | _ => some (.register (x.pa % 2 ^ 32))

/-- The target of an atomic: RD and WR; an operand node faults ALIGN, a device register takes CAS only (R16, R50). -/
def atomXl (op : AtomOp) (sp : Bool) (ea : W64) (n : Nat) : Act Xl := do
  if sp then xlObj ea n else xlAny false ea .rw n (op == .cas)

/-- The entries of the request queue of a bank port and of a core's port to its atomic engine (R41, R54). -/
def queueDepth : AtomHome → Nat
  | .bank _ => 16
  | _ => 8

/-- The queue of a home that holds posted atomics. -/
def atomQueue (s : State) : AtomHome → List Req
  | .bank k => (nodeAt s k).portM
  | .engine cl => getD (clusterAt s cl).ports [] (coreOf s.cur % 16)
  | _ => []

/-- Queues a posted atomic of the current context at its home; a full queue delays it (R54, R192, R280). -/
def postAtomic (h : AtomHome) (r : Req) (ea : W64) : Act Unit := fun s =>
  if queueDepth h ≤ (atomQueue s h).length then
    .error (.wait (.room (match h with
      | .engine cl => .port cl (coreOf s.cur % 16)
      | .bank k => .bank k
      | _ => .peer 1)) none) s
  else
    let s1 := match h with
      | .bank k => updNode s k (fun n => { n with portM := n.portM ++ [r] })
      | .engine cl => updCluster s cl (fun c =>
          { c with ports := put c.ports (coreOf s.cur % 16) (getD c.ports [] (coreOf s.cur % 16) ++ [r]) })
      | _ => s
    .ok () { s1 with cx := { s1.cx with posted := s1.cx.posted ++ [{ line := r.loc / 64, ea := ea, pc := s1.cx.pc, ir := s1.cx.ir }] } }

/-- A posted atomic that faults traps its context at a next instruction, with POST (R280). -/
def posting (posted : Bool) (x : Act Flow) : Act Flow := fun s =>
  match posted, x s with
  | true, .error (.trap f kept) _ =>
    let s1 := kept.getD s
    .ok .next { s1 with cx := { s1.cx with trapNext := s1.cx.trapNext ++ [{ f := { f with post := true }, pc := s.cx.pc, ir := s.cx.ir }] } }
  | _, r => r

/-- Performs an atomic of the current context at its home, after what is queued there and after the context's own bytes (R158): the
old value (R53, R55). -/
def performAtomic (h : AtomHome) (op : AtomOp) (x : Xl) (ea : W64) (n : Nat) (v expected : W64) : Act W64 := do
  upd (fun s => match h with
    | .bank k => drainBank s k
    | .engine cl => drainAe s cl
    | _ => s)
  let bad ← view (fun s => poisoned s x.loc n)
  if bad then trapAt cECC ea
  else fun s0 =>
    let s := publishWord s0 s0.cur x.loc n
    let r := match h with
      | .engine cl => aeAt (updCluster s cl (fun c => { c with lastWinner := coreOf s.cur % 16 })) cl op x.loc n v expected
      | _ => rmwAt s op x.loc n v expected
    .ok (BitVec.ofNat 64 r.1) (signBy r.2 x.loc s.cx.author)

/-- An atomic, CAS or AMAXRST of a size (R278-R281). Its NEG does not invert the predicate: it is ILLEGAL whatever that is (R278;
DEDUCED, log 29). -/
def atomic (o : OpR) (op : AtomOp) (n : Nat) (sp : Bool) (s : State) : Host.Outcome State Fault Refusal :=
  let acq := o.x.ord.toNat % 2 == 1
  let rel := decide (2 ≤ o.x.ord.toNat)
  runInsn (okAtom o.x && !(op == .cas && isQ o.d)) (o.x.neg || on0 s o.p false) (lenX o.x.has) (do
    checkG o.d
    let expected ← (if op == .cas then rdG o.d else pure 0)
    let a ← rdG o.a
    let v ← rdG o.b
    needFrontier
    let ea := a + ximmOf o.x n
    posting (o.d == 0 && !acq) (do
    let x ← atomXl op sp ea n
    let home ← view (fun s => atomHome s sp x)
    match home with
    | none => trapAt cPROT ea
    | some h =>
      markExposed
      if rel then releaseAt (scopeOf o.x 4) else pure ()
      match h with
      | .register off => do
        deviceGate
        let r ← view (fun s => regCas s off n (atomArg n expected) (atomArg n v) s.cx.mode)
        match r with
        | .error c => trapAt c ea
        | .ok (old, _) =>
          let held ← if old = atomArg n expected then hnoteHeld off n v else pure false
          if acq then acquire (scopeOf o.x 4) else pure ()
          wrG o.d (BitVec.ofNat 64 old)
          if held then pure .next else pure (.after (fun s => match regCas s off n (atomArg n expected) (atomArg n v) s.cx.mode with
            | .ok (_, s') => s'
            | .error _ => s))
      | _ => do
        let ts ← view (fun s => isTs s s.cx)
        if ts && x.o then ordered (x.loc / 64) true else pure ()
        upd (fun s => l1DropLine s (coreOf s.cur) (x.loc / 64))
        if o.d = 0 && !acq && h != .peer then
          upd (fun s => drainPosted s s.cur (x.loc / 64))
          let now ← view (fun s => (s.cur, s.cycle))
          postAtomic h { op := some op, loc := x.loc, size := n, data := v, expected := expected, cid := some now.1, elem := none,
                         arrival := now.2 } ea
          pure .next
        else
          let old ← once (performAtomic h op x ea n v expected)
          if acq then acquire (scopeOf o.x 4) else pure ()
          wrG o.d old
          pure .next)) s

def execAmoAddW (o : OpR) : State → Host.Outcome State Fault Refusal := atomic o .add 4 false
def execAmoMinW (o : OpR) : State → Host.Outcome State Fault Refusal := atomic o .min 4 false
def execAmoMaxW (o : OpR) : State → Host.Outcome State Fault Refusal := atomic o .max 4 false
def execAmoMinuW (o : OpR) : State → Host.Outcome State Fault Refusal := atomic o .minu 4 false
def execAmoMaxuW (o : OpR) : State → Host.Outcome State Fault Refusal := atomic o .maxu 4 false
def execAmoAndW (o : OpR) : State → Host.Outcome State Fault Refusal := atomic o .and 4 false
def execAmoOrW (o : OpR) : State → Host.Outcome State Fault Refusal := atomic o .or 4 false
def execAmoXorW (o : OpR) : State → Host.Outcome State Fault Refusal := atomic o .xor 4 false
def execAmoSwapW (o : OpR) : State → Host.Outcome State Fault Refusal := atomic o .swap 4 false
def execAmoFaddF32 (o : OpR) : State → Host.Outcome State Fault Refusal := atomic o .faddF32 4 false
def execAmoFaddBf16 (o : OpR) : State → Host.Outcome State Fault Refusal := atomic o .faddBf16 2 false
def execCasW (o : OpR) : State → Host.Outcome State Fault Refusal := atomic o .cas 4 false
def execAmaxrstW (o : OpR) : State → Host.Outcome State Fault Refusal := atomic o .amaxrst 4 false
def execAmoAddD (o : OpR) : State → Host.Outcome State Fault Refusal := atomic o .add 8 false
def execAmoMinD (o : OpR) : State → Host.Outcome State Fault Refusal := atomic o .min 8 false
def execAmoMaxD (o : OpR) : State → Host.Outcome State Fault Refusal := atomic o .max 8 false
def execAmoMinuD (o : OpR) : State → Host.Outcome State Fault Refusal := atomic o .minu 8 false
def execAmoMaxuD (o : OpR) : State → Host.Outcome State Fault Refusal := atomic o .maxu 8 false
def execAmoAndD (o : OpR) : State → Host.Outcome State Fault Refusal := atomic o .and 8 false
def execAmoOrD (o : OpR) : State → Host.Outcome State Fault Refusal := atomic o .or 8 false
def execAmoXorD (o : OpR) : State → Host.Outcome State Fault Refusal := atomic o .xor 8 false
def execAmoSwapD (o : OpR) : State → Host.Outcome State Fault Refusal := atomic o .swap 8 false
def execCasD (o : OpR) : State → Host.Outcome State Fault Refusal := atomic o .cas 8 false
def execAmaxrstD (o : OpR) : State → Host.Outcome State Fault Refusal := atomic o .amaxrst 8 false
def execAmoAddWS (o : OpR) : State → Host.Outcome State Fault Refusal := atomic o .add 4 true
def execAmoMinWS (o : OpR) : State → Host.Outcome State Fault Refusal := atomic o .min 4 true
def execAmoMaxWS (o : OpR) : State → Host.Outcome State Fault Refusal := atomic o .max 4 true
def execAmoMinuWS (o : OpR) : State → Host.Outcome State Fault Refusal := atomic o .minu 4 true
def execAmoMaxuWS (o : OpR) : State → Host.Outcome State Fault Refusal := atomic o .maxu 4 true
def execAmoAndWS (o : OpR) : State → Host.Outcome State Fault Refusal := atomic o .and 4 true
def execAmoOrWS (o : OpR) : State → Host.Outcome State Fault Refusal := atomic o .or 4 true
def execAmoXorWS (o : OpR) : State → Host.Outcome State Fault Refusal := atomic o .xor 4 true
def execAmoSwapWS (o : OpR) : State → Host.Outcome State Fault Refusal := atomic o .swap 4 true
def execAmoFaddF32S (o : OpR) : State → Host.Outcome State Fault Refusal := atomic o .faddF32 4 true
def execAmoFaddBf16S (o : OpR) : State → Host.Outcome State Fault Refusal := atomic o .faddBf16 2 true
def execCasWS (o : OpR) : State → Host.Outcome State Fault Refusal := atomic o .cas 4 true
def execAmaxrstWS (o : OpR) : State → Host.Outcome State Fault Refusal := atomic o .amaxrst 4 true
def execAmoAddDS (o : OpR) : State → Host.Outcome State Fault Refusal := atomic o .add 8 true
def execAmoMinDS (o : OpR) : State → Host.Outcome State Fault Refusal := atomic o .min 8 true
def execAmoMaxDS (o : OpR) : State → Host.Outcome State Fault Refusal := atomic o .max 8 true
def execAmoMinuDS (o : OpR) : State → Host.Outcome State Fault Refusal := atomic o .minu 8 true
def execAmoMaxuDS (o : OpR) : State → Host.Outcome State Fault Refusal := atomic o .maxu 8 true
def execAmoAndDS (o : OpR) : State → Host.Outcome State Fault Refusal := atomic o .and 8 true
def execAmoOrDS (o : OpR) : State → Host.Outcome State Fault Refusal := atomic o .or 8 true
def execAmoXorDS (o : OpR) : State → Host.Outcome State Fault Refusal := atomic o .xor 8 true
def execAmoSwapDS (o : OpR) : State → Host.Outcome State Fault Refusal := atomic o .swap 8 true
def execCasDS (o : OpR) : State → Host.Outcome State Fault Refusal := atomic o .cas 8 true
def execAmaxrstDS (o : OpR) : State → Host.Outcome State Fault Refusal := atomic o .amaxrst 8 true

/-! ## Fences (R282, R283) -/

/-- A fence of an order code and a scope; 0 is .ar (R167). -/
def fenceOf (ord scope : Nat) : Act Unit := do
  let o := if ord = 0 then 3 else ord
  if 2 ≤ o then releaseAt scope else pure ()
  if o % 2 = 1 then acquire scope else pure ()

def execFence (o : OpR) : State → Host.Outcome State Fault Refusal :=
  runR (o.x.rm == 0 && o.x.ximm == 0 && scpOk o.x) o (do
    fenceOf o.x.ord.toNat (scopeOf o.x 4)
    pure .next)

/-- FENCEQ: the input patterns that the mask names are read again. What was pushed already is in its channel, its hold or
the store buffer. -/
def execFenceq (o : OpR) : State → Host.Outcome State Fault Refusal :=
  runR (o.x.rm == 0 && scpOk o.x && !o.x.ximm.getLsbD 16) o (do
    let named (n : Nat) : Bool := o.x.ximm == 0 || o.x.ximm.getLsbD n
    upd (fun s => { s with cx := { s.cx with ports := s.cx.ports.map (fun p =>
      (p.1, match p.2.bind with
        | .pattern d => if named p.1 && db d 192 192 == 0 then { p.2 with ahead := [] } else p.2
        | _ => p.2)) } })
    fenceOf o.x.ord.toNat (scopeOf o.x 4)
    pure .next)

end Sys2Proof.Machine
end

