-- ==== Sys2Proof/Machine/Control.lean ====
section
/-! DEFINITION. Branches, jumps, calls, register windows and predicates (spec/09 R263-R266, spec/08 R242-R243). -/

namespace Sys2Proof.Machine
open Sys2Proof

/-- A transfer of control: to a multiple of 4, or ALIGN (R229). -/
def jumpTo (a : W64) : Act Flow := if a.toNat % 4 ≠ 0 then trapAt cALIGN a else pure (.jump a)

/-- The target of a branch: the word's address + 4 × offset (R230). -/
def branchTo (off : W64) : Act Flow := do
  let pc ← view (·.cx.pc)
  jumpTo (pc + off * 4)

/-- A compare branch (R263). -/
def branch (o : OpB) (c : W64 → W64 → Bool) : State → Host.Outcome State Fault Refusal :=
  runU true false (do
    let a ← rdG o.a
    let b ← rdG o.b
    if c a b then branchTo (o.off.signExtend 64) else pure .next)

def execBeq (o : OpB) : State → Host.Outcome State Fault Refusal := branch o (fun a b => a == b)
def execBne (o : OpB) : State → Host.Outcome State Fault Refusal := branch o (fun a b => a != b)
def execBlt (o : OpB) : State → Host.Outcome State Fault Refusal := branch o ltS
def execBge (o : OpB) : State → Host.Outcome State Fault Refusal := branch o (fun a b => !ltS a b)
def execBltu (o : OpB) : State → Host.Outcome State Fault Refusal := branch o ltU
def execBgeu (o : OpB) : State → Host.Outcome State Fault Refusal := branch o (fun a b => !ltU a b)

/-- BQE: EOS of the port, with no pop (R264). -/
def execBqe (o : OpBx) : State → Host.Outcome State Fault Refusal :=
  runU (isQ o.a) false (do
    let e ← view (fun s => (portAt s.cx (o.a.toNat - 48)).eos)
    if e then branchTo (o.off.signExtend 64) else pure .next)

def execBpa (o : OpBx) : State → Host.Outcome State Fault Refusal :=
  runU (isP o.a) false (do
    let p ← view (fun s => pReg s.cx o.a.toNat)
    if p != 0 then branchTo (o.off.signExtend 64) else pure .next)

def execBpn (o : OpBx) : State → Host.Outcome State Fault Refusal :=
  runU (isP o.a) false (do
    let p ← view (fun s => pReg s.cx o.a.toNat)
    if p == 0 then branchTo (o.off.signExtend 64) else pure .next)

/-- LOOP (R264). -/
def execLoop (o : OpBx) : State → Host.Outcome State Fault Refusal :=
  runU (decide (o.a.toNat < 3)) false (do
    let n ← view (fun s => getD s.cx.lc 0 o.a.toNat)
    if n = 0 then pure .next
    else
      let f ← if n = 1 then pure .next else branchTo (o.off.signExtend 64)
      upd (fun s => { s with cx := { s.cx with lc := setD s.cx.lc 0 o.a.toNat (n - 1) } })
      pure f)

def execJmp (o : OpJ) : State → Host.Outcome State Fault Refusal := runU true false (branchTo (o.off.signExtend 64))

/-- CALL(target) of R242: g1 is the address of the instruction + 4; that of a prefixed CALLR is its X word's (R230, R233; DEDUCED, log
29). -/
def callTo (f : Flow) : Act Flow := do
  let c ← view (·.cx)
  if c.size ≠ 40 then trapAt cILLEGAL 0
  else
    upd (fun s => { s with cx := { setG s.cx 1 (s.cx.pc + 4) with fb := s.cx.fb + 32, size := 8 } })
    pure f

def execCall (o : OpJ) : State → Host.Outcome State Fault Refusal :=
  runU true false (do
    let c ← view (·.cx)
    if c.size ≠ 40 then trapAt cILLEGAL 0
    else
      let f ← branchTo (o.off.signExtend 64)
      callTo f)

def execJmpr (o : OpR) : State → Host.Outcome State Fault Refusal :=
  runR (okNeg o.x) o (do
    let a ← rdG o.a
    jumpTo a)

def execCallr (o : OpR) : State → Host.Outcome State Fault Refusal :=
  runR (okNeg o.x) o (do
    let c ← view (·.cx)
    if c.size ≠ 40 then trapAt cILLEGAL 0
    else
      let a ← rdG o.a
      let f ← jumpTo a
      callTo f)

/-- A spill: the oldest 8 resident registers to the backing store (R242, R243). -/
def spillBlock : Act Unit := do
  let c ← view (·.cx)
  if c.bsl.toNat < c.bsp.toNat + 64 then trapAt cSPILL c.bsp
  else
    (range' 0 8).forM (fun j => do
      let f ← storeScalar false (c.bsp + BitVec.ofNat 64 (8 * j)) 8 (getD c.phys 0 ((c.rlo + j) % 256).toNat)
      match f with
      | .after g => upd g
      | _ => pure ())
    upd (fun s => { s with cx := { s.cx with bsp := c.bsp + 64, rlo := c.rlo + 8 } })

/-- A fill: the 8 registers below the resident ones from the backing store. -/
def fillBlock : Act Unit := do
  let c ← view (·.cx)
  let vs ← (range' 0 8).mapM (fun j => loadScalar false (c.bsp - 64 + BitVec.ofNat 64 (8 * j)) 8)
  upd (fun s => { s with cx := { s.cx with
    bsp := c.bsp - 64, rlo := c.rlo - 8,
    phys := (range' 0 8).foldl (fun m (j : Nat) => setD m 0 ((c.rlo - 8 + j) % 256).toNat (BitVec.ofNat 64 (vs.getD j 0))) s.cx.phys } })

/-- Repeats a block move while a condition holds; a move that stops leaves the blocks before it moved (R243). fuel bounds the
blocks. -/
def moveWhile (p : Ctx → Bool) (m : Act Unit) : Nat → Act Unit
  | 0 => pure ()
  | f + 1 => do
    let c ← view (·.cx)
    if p c then do keepOn m; moveWhile p m f else pure ()

/-- Fills until a frame that begins some registers below the current one is resident: the caller's, or the current one of a task that
goes on (R242, R243). -/
def fillFrame (below : Nat) : Act Unit := do
  let c ← view (·.cx)
  moveWhile (fun c => decide ((c.fb.toNat : Int) < c.rlo + below)) fillBlock (c.rlo + below - c.fb.toNat).toNat

/-- RET: the end of the task at fb = 0, else the return to the caller's frame (R242). -/
def execRet (o : OpR) : State → Host.Outcome State Fault Refusal :=
  runR (okNeg o.x) o (do
    let c ← view (·.cx)
    if c.fb = 0 then
      let csc ← view (fun s => (s.cx.task.map (·.csc)).getD 0)
      endSelf csc
    else
      fillFrame 32
      let f ← keepOn (jumpTo (gReg c 1))
      upd (fun s => { s with cx := { s.cx with fb := s.cx.fb - 32, size := 40 } })
      pure f)

/-- ENTER n, with b = n / 8 (R242). -/
def execEnter (o : OpR) : State → Host.Outcome State Fault Refusal :=
  runR (okNeg o.x) o (do
    let n := 8 * o.b.toNat
    let c ← view (·.cx)
    moveWhile (fun c => decide (256 + c.rlo < (c.fb.toNat : Int) + n)) spillBlock ((c.fb.toNat : Int) + n - c.rlo).toNat
    upd (fun s => { s with cx := { s.cx with
      size := n
      phys := (range' s.cx.size (n - s.cx.size)).foldl (fun m i => setD m 0 ((s.cx.fb.toNat + i) % 256) 0) s.cx.phys } })
    pure .next)

/-- LEAVE (R242). -/
def execLeave (o : OpR) : State → Host.Outcome State Fault Refusal :=
  runR (okNeg o.x) o (do
    let c ← view (·.cx)
    if c.fb = 0 then pure () else fillFrame 32
    upd (fun s => { s with cx := { s.cx with size := 8 } })
    pure .next)

/-! ## Predicates (R266) -/

/-- A lane-wise predicate instruction: lanes that are off keep their bit of d. -/
def pred2 (o : OpR) (two : Bool) (f : BitVec 16 → BitVec 16 → BitVec 16) : State → Host.Outcome State Fault Refusal :=
  runV (okNeg o.x && isPd o.d && isP o.a && (!two || isP o.b)) o (fun g => do
    upd (fun s =>
      let r := f (pReg s.cx o.a.toNat) (pReg s.cx o.b.toNat)
      { s with cx := setP s.cx o.d.toNat ((r &&& g) ||| (pReg s.cx o.d.toNat &&& ~~~ g)) })
    pure .next)

def execPand (o : OpR) : State → Host.Outcome State Fault Refusal := pred2 o true (fun a b => a &&& b)
def execPor (o : OpR) : State → Host.Outcome State Fault Refusal := pred2 o true (fun a b => a ||| b)
def execPxor (o : OpR) : State → Host.Outcome State Fault Refusal := pred2 o true (fun a b => a ^^^ b)
def execPnot (o : OpR) : State → Host.Outcome State Fault Refusal := pred2 o false (fun a _ => ~~~ a)

def execPcnt (o : OpR) : State → Host.Outcome State Fault Refusal :=
  runR (okNeg o.x && isP o.a) o (do
    checkG o.d
    let p ← view (fun s => pReg s.cx o.a.toNat)
    wrG o.d (BitVec.ofNat 64 (popc 16 p.toNat))
    pure .next)

def execPseti (o : OpPset) : State → Host.Outcome State Fault Refusal :=
  runU (isPd o.d) false (do
    upd (fun s => { s with cx := setP s.cx o.d.toNat o.mask })
    pure .next)

end Sys2Proof.Machine
end

