-- ==== Sys2Proof/Machine/Streams.lean ====
section
/-! DEFINITION. Stream-port instructions (spec/09 R284-R297). -/

namespace Sys2Proof.Machine
open Sys2Proof

/-- The port that a field names. -/
def portNo (x : BitVec 6) : Nat := x.toNat - 48

/-- Unbinds a port of the current context (R296). What a timestamp task's hold keeps is sent at its commit; what was kept
from a channel goes back to it. -/
def freePort (n : Nat) : Act Unit := upd (fun s =>
  let p := portAt s.cx n
  let s1 := { s with cx := { s.cx with ports := del s.cx.ports n } }
  match p.bind with
  | .channel _ key =>
    let s2 := updEndp s1 key (unbind p)
    if p.hold.isEmpty then s2
    else { s2 with cx := { s2.cx with held := s2.cx.held ++ [.toks key p.hold] } }
  | _ => s1)

/-- A bind that fails leaves the port unbound; the fault names it (R285, R288, R297). -/
def bindErr {α : Type} (n : Nat) : Act α := do
  freePort n
  fun s => .error (.trap { faultAt cQBIND 0 with port := some n, pos := some (0, 0, 0) } (some s)) s

/-- Binds a port anew. -/
def bindPort (n : Nat) (b : Bind) (hold : List Token) : Act Unit := upd (fun s =>
  { s with cx := { s.cx with ports := put s.cx.ports n { Port.free with bind := b, hold := hold } } })

/-- The element formats of a pattern (R285). -/
def patFmt (f : Nat) : Bool := [0, 1, 2, 3, 4, 7, 0xC, 0xD].contains f

/-- R285's conditions on a descriptor. -/
def patBad (d : BitVec 256) : Bool :=
  db d 199 197 != 0 || db d 255 204 != 0 || !patFmt (db d 203 200) ||
  (db d 196 196 == 1 && (db d 194 194 == 1 || db d 203 200 == 0 || decide (4 < db d 203 200))) ||
  (db d 193 193 == 1 && db d 63 32 != 0)

def execQbind (o : OpR) : State → Host.Outcome State Fault Refusal :=
  runR (okNeg o.x && isQ o.d) o (do
    let n := portNo o.d
    let a ← rdG o.a
    if a.toNat % 32 ≠ 0 then bindErr n
    else
      let bs ← (fun s => match loadWhole false a 32 s with
        | .error (.trap f k) s' => .error (.trap { f with port := some n, pos := some (0, 0, 0) } k) s'
        | r => r)
      let d := BitVec.ofNat 256 (natOfBytes bs)
      if patBad d then bindErr n
      else
        freePort n
        bindPort n (.pattern d) []
        pure .next)

/-- R288's conditions on an endpoint word, beside the endpoint's configuration and whether it is bound. -/
def epBad (c : Ctx) (n : Nat) (e : W64) : Bool :=
  let input : Bool := match (portAt c (ew e 19 16)).bind with
    | .channel w _ => ew w 4 4 == 0
    | _ => false
  ew e 15 15 != 0 || ew e 63 23 != 0 ||
  (ew e 12 12 == 1 && (ew e 6 5 != 2 || ew e 11 8 == 0 || decide (4 < ew e 11 8))) ||
  (ew e 14 14 == 1 && (ew e 19 16 == n || !input)) || (ew e 22 20 != 0 && ew e 4 4 == 1)

def execQbindc (o : OpR) : State → Host.Outcome State Fault Refusal :=
  runR (okNeg o.x && isQ o.d) o (do
    let n := portNo o.d
    let e ← rdG o.a
    let s ← view id
    let key := 16 * coreSite s (coreOf s.cur) + ew e 3 0
    let ep := endpAt s key
    let other : Bool := match ep.bound with
      | some b => b != (s.cur, n)
      | none => false
    let kind := bits ep.cfg 3 2
    let filt : Bool := bit ep.cfg 1 && !mordTokenOk (mordant s (key / 16) (bits ep.cfg 4 4) (bits ep.cfg 8 5))
      (if 2 ≤ kind then some (ew e 11 8) else none) (kind == 3)
    if epBad s.cx n e || !bit ep.cfg 0 || ew e 4 4 != bits ep.cfg 1 1 || ew e 6 5 != bits ep.cfg 3 2 || other || filt
    then bindErr n
    else
      freePort n
      let c ← view (·.cx)
      let kept := c.held.flatMap (fun h => match h with
        | .toks k ts => if k = key then ts else []
        | _ => [])
      let stream ← view (fun s => endpAt s key)
      upd (fun s => updEndp { s with cx := { s.cx with held := s.cx.held.filter (fun h => match h with
          | .toks k _ => decide (k ≠ key)
          | _ => true) } } key (fun x => { x with bound := some (s.cur, n), last := none }))
      bindPort n (.channel e key) kept
      if ew e 4 4 = 0 then updPort n (fun p => { p with last := stream.last }) else pure ()
      pure .next)

def execQfree (o : OpR) : State → Host.Outcome State Fault Refusal :=
  runR (okNeg o.x && isQ o.d) o (do
    freePort (portNo o.d)
    pure .next)

/-- AVAIL of a port (Table 9-5); a channel is exhausted once DONE is at its head (R289). -/
def availOf (s : State) (p : Port) : Nat :=
  match p.bind with
  | .unbound => 0
  | .pattern d =>
    if patCount d ≤ p.pos then 0 else if db d 192 192 = 1 then patCount d - p.pos else p.ahead.length
  | .channel e key =>
    if p.done then 0
    else if ew e 4 4 = 0 then
      let toks := p.ahead.map vecTok ++ (endpAt s key).kept ++ (endpAt s key).buf
      if toks.head?.any (fun t => t.tag = tDONE) then 0 else toks.length
    else if isTs s s.cx && !s.cx.committing then 16 - p.hold.length
    else ((endpDests s key).map (roomAt s)).foldl min 255

/-- The status word of a port (Table 9-5). -/
def portStat (s : State) (n : Nat) : W64 :=
  let p := portAt s.cx n
  let b (x : Bool) (k : Nat) : Nat := if x then 2 ^ k else 0
  if p.bind = .unbound then 0
  else
    let (ch, vec, inCh) : Bool × Bool × Bool := match p.bind with
      | .channel e _ => (true, false, ew e 4 4 == 0)
      | .pattern d => (false, db d 194 194 == 1, false)
      | .unbound => (false, false, false)
    BitVec.ofNat 64 (1 + b (portOut p) 1 + b ch 2 + b vec 3 + b p.eos 4 + (if inCh then p.ltag.toNat * 2 ^ 8 else 0) +
      min (availOf s p) 255 * 2 ^ 16 + min p.debt 255 * 2 ^ 24 + min p.cnt (2 ^ 32 - 1) * 2 ^ 32)

def execQstat (o : OpR) : State → Host.Outcome State Fault Refusal :=
  runR (okNeg o.x && isQ o.a) o (do
    checkG o.d
    let v ← view (fun s => portStat s (portNo o.a))
    wrG o.d v
    pure .next)

/-- What QPEEK writes (R293). -/
def peekPort (n : Nat) : Act W64 := do
  let p ← view (fun s => portAt s.cx n)
  match p.bind with
  | .unbound => chanFault cQFAULT n
  | .pattern d =>
    if db d 192 192 = 1 || db d 194 194 = 1 then chanFault cQFAULT n
    else
      let r ← patPeek n d
      match r with
      | none => pure 0xF00000000
      | some v =>
        updPort n (fun p => if p.ahead.isEmpty then { p with ahead := [v] } else p)
        let pol ← view polOf
        pure (widen (db d 203 200) (db d 196 196 == 1) (db d 195 195 == 1) pol v.toNat)
  | .channel e key =>
    if ew e 4 4 = 1 then chanFault cQFAULT n
    else
      let r ← chanPeek n key e
      match r with
      | none => pure 0xF00000000
      | some t => pure (BitVec.ofNat 64 (t.tag.toNat * 2 ^ 32 + t.data.toNat))

def execQpeek (o : OpR) : State → Host.Outcome State Fault Refusal :=
  runR (okNeg o.x && isQ o.a) o (do
    checkG o.d
    let v ← peekPort (portNo o.a)
    wrG o.d v
    pure .next)

def execQskip (o : OpR) : State → Host.Outcome State Fault Refusal :=
  runR (okNeg o.x && isQ o.a) o (do
    let n := portNo o.a
    let b ← rdG o.b
    let p ← view (fun s => portAt s.cx n)
    match p.bind with
    | .unbound => chanFault cQFAULT n
    | .pattern d =>
      if db d 192 192 = 1 then chanFault cQFAULT n
      else
        updPort n (fun p => { p with pos := p.pos + b.toNat, ahead := [] })
        pure .next
    | .channel e key =>
      if ew e 4 4 = 1 then chanFault cQFAULT n
      else
        let c : W32 := b.setWidth 32
        upd (fun s => sendSkip s (.endp key) c)
        updPort n (fun p => { p with thr := some (match p.thr with
          | some t => if t.ult c then c else t
          | none => c) })
        pure .next)

/-- QEMIT: field b is the tag, a stop or DONE. -/
def execQemit (o : OpR) : State → Host.Outcome State Fault Refusal :=
  runR (okNeg o.x && isQ o.d && decide (8 ≤ o.b.toNat) && decide (o.b.toNat < 16)) o (do
    let n := portNo o.d
    let p ← view (fun s => portAt s.cx n)
    match p.bind with
    | .channel e key =>
      if ew e 4 4 = 0 then chanFault cQFAULT n
      else if p.done then setEos n; pure .next
      else
        chanRoom n key
        emitTok n key { tag := o.b.setWidth 4, data := 0 }
        pure .next
    | _ => chanFault cQFAULT n)

/-- QSEEK (R295). It clears EOS where the position it sets is not past the end, as R295 says, though Table 8-4 has only a bind or QFREE
clear it: R295 is the instruction's own rule (DESIGN CHOICE, log 30). -/
def execQseek (o : OpR) : State → Host.Outcome State Fault Refusal :=
  runR (okNeg o.x && isQ o.a) o (do
    let n := portNo o.a
    let b ← rdG o.b
    let p ← view (fun s => portAt s.cx n)
    match p.bind with
    | .pattern d =>
      updPort n (fun p => { p with pos := b.toNat, ahead := [], eos := p.eos && decide (patCount d ≤ b.toNat) })
      pure .next
    | _ => chanFault cQFAULT n)

end Sys2Proof.Machine
end

