-- ==== Sys2Proof/Machine/Vector.lean ====
section
/-! DEFINITION. Vector instructions (spec/10 R299-R317). -/

namespace Sys2Proof.Machine
open Sys2Proof

/-- No RM. -/
def okPlain (x : XW) : Bool := okNeg x
/-- RM as a lane operation takes it. -/
def rmX (x : XW) : Rm := rmOf x.rm.toNat

/-! ## Lane by lane -/

/-- d[i] := f i a[i] b[i] d[i], where on; f is given the policy. acc: d is a source too, and is no port (R225). -/
def lanes3 (ok : Bool) (o : OpR) (acc two : Bool) (f : Nat → W32 → W32 → W32 → W32) :
    State → Host.Outcome State Fault Refusal :=
  runV (ok && isV o.d && isV o.a && (!two || isV o.b) && !(acc && isQ o.d)) o (fun g => do
    checkV o.d
    let a ← rdV o.a
    let b ← (if two then rdV o.b else pure 0)
    let pol ← view polOf
    let old ← oldLanes o.d g
    wrV o.d (merge g (ofLanes (fun i => f pol (lane a i) (lane b i) (lane old i))) old)
    pure .next)

/-- A form d, a, b of FP32 lanes with a rounding mode. -/
def fp2 (o : OpR) (f : Rm → Nat → Nat → Nat → Nat) : State → Host.Outcome State Fault Refusal :=
  lanes3 (okRm o.x) o false true (fun pol a b _ => BitVec.ofNat 32 (f (rmX o.x) pol a.toNat b.toNat))

/-- A form d, a, b of 32-bit lanes that takes no policy. -/
def int2 (o : OpR) (f : W32 → W32 → W32) : State → Host.Outcome State Fault Refusal :=
  lanes3 (okPlain o.x) o false true (fun _ a b _ => f a b)

/-- A form d, a of 32-bit lanes. -/
def int1 (o : OpR) (f : W32 → W32) : State → Host.Outcome State Fault Refusal :=
  lanes3 (okPlain o.x) o false false (fun _ a _ _ => f a)

/-! ## FP32 arithmetic (R300-R302) -/

def execVaddF32 (o : OpR) : State → Host.Outcome State Fault Refusal := fp2 o fpAdd
def execVsubF32 (o : OpR) : State → Host.Outcome State Fault Refusal := fp2 o fpSub
def execVmulF32 (o : OpR) : State → Host.Outcome State Fault Refusal := fp2 o fpMul

/-- VFMA and VFMS. -/
def vfma (o : OpR) (sub : Bool) : State → Host.Outcome State Fault Refusal :=
  lanes3 (okRm o.x) o true true (fun pol a b d =>
    BitVec.ofNat 32 (fpFma (rmX o.x) pol sub d.toNat a.toNat b.toNat))
def execVfmaF32 (o : OpR) : State → Host.Outcome State Fault Refusal := vfma o false
def execVfmsF32 (o : OpR) : State → Host.Outcome State Fault Refusal := vfma o true

/-- VMIN and VMAX. -/
def vminmax (o : OpR) (greater : Bool) : State → Host.Outcome State Fault Refusal :=
  lanes3 (okPlain o.x) o false true (fun pol a b _ => BitVec.ofNat 32 (fpMinMax greater pol a.toNat b.toNat))
def execVminF32 (o : OpR) : State → Host.Outcome State Fault Refusal := vminmax o false
def execVmaxF32 (o : OpR) : State → Host.Outcome State Fault Refusal := vminmax o true

def execVabsF32 (o : OpR) : State → Host.Outcome State Fault Refusal := int1 o (fun a => a &&& 0x7FFFFFFF)
def execVnegF32 (o : OpR) : State → Host.Outcome State Fault Refusal := int1 o (fun a => a ^^^ 0x80000000)

/-! ## Compares (R303) -/

/-- A compare: bits of a predicate where lanes are on. -/
def vcmp (o : OpR) (f : Nat → W32 → W32 → Bool) : State → Host.Outcome State Fault Refusal :=
  runV (okPlain o.x && isPd o.d && isV o.a && isV o.b) o (fun g => do
    let a ← rdV o.a
    let b ← rdV o.b
    upd (fun s =>
      let pol := polOf s
      let old := pReg s.cx o.d.toNat
      { s with cx := setP s.cx o.d.toNat (ofBits (fun i =>
          if g.getLsbD i then f pol (lane a i) (lane b i) else old.getLsbD i)) })
    pure .next)

/-- A compare of FP32 lanes: no order with a NaN. -/
def fcmp (nanResult : Bool) (f : Int → Bool) (pol : Nat) (a b : W32) : Bool :=
  let x := flush fp32 pol a.toNat
  let y := flush fp32 pol b.toNat
  if x.isNan || y.isNan then nanResult else f (fvCmp x y)

def execVcmpEqF32 (o : OpR) : State → Host.Outcome State Fault Refusal := vcmp o (fcmp false (fun c => c == 0))
def execVcmpNeF32 (o : OpR) : State → Host.Outcome State Fault Refusal := vcmp o (fcmp true (fun c => c != 0))
def execVcmpLtF32 (o : OpR) : State → Host.Outcome State Fault Refusal := vcmp o (fcmp false (fun c => decide (c < 0)))
def execVcmpLeF32 (o : OpR) : State → Host.Outcome State Fault Refusal := vcmp o (fcmp false (fun c => decide (c ≤ 0)))
def execVcmpEqI32 (o : OpR) : State → Host.Outcome State Fault Refusal := vcmp o (fun _ a b => a == b)
def execVcmpNeI32 (o : OpR) : State → Host.Outcome State Fault Refusal := vcmp o (fun _ a b => a != b)
def execVcmpLtI32 (o : OpR) : State → Host.Outcome State Fault Refusal := vcmp o (fun _ a b => a.slt b)
def execVcmpLeI32 (o : OpR) : State → Host.Outcome State Fault Refusal := vcmp o (fun _ a b => a.sle b)
def execVcmpLtuI32 (o : OpR) : State → Host.Outcome State Fault Refusal := vcmp o (fun _ a b => a.ult b)
def execVcmpLeuI32 (o : OpR) : State → Host.Outcome State Fault Refusal := vcmp o (fun _ a b => a.ule b)

/-! ## Integer lanes (R304) -/

def execVaddI32 (o : OpR) : State → Host.Outcome State Fault Refusal := int2 o (fun a b => a + b)
def execVsubI32 (o : OpR) : State → Host.Outcome State Fault Refusal := int2 o (fun a b => a - b)
def execVmulI32 (o : OpR) : State → Host.Outcome State Fault Refusal := int2 o (fun a b => a * b)
/-- Minimum and maximum, as VRED takes them too. -/
def minS (a b : W32) : W32 := if a.slt b then a else b
def maxS (a b : W32) : W32 := if a.slt b then b else a
def execVminI32 (o : OpR) : State → Host.Outcome State Fault Refusal := int2 o minS
def execVmaxI32 (o : OpR) : State → Host.Outcome State Fault Refusal := int2 o maxS
def execVminU32 (o : OpR) : State → Host.Outcome State Fault Refusal := int2 o (fun a b => if a.ult b then a else b)
def execVmaxU32 (o : OpR) : State → Host.Outcome State Fault Refusal := int2 o (fun a b => if a.ult b then b else a)
def execVabsI32 (o : OpR) : State → Host.Outcome State Fault Refusal := int1 o (fun a => if a.slt 0 then -a else a)
def execVnegI32 (o : OpR) : State → Host.Outcome State Fault Refusal := int1 o (fun a => -a)
def execVand (o : OpR) : State → Host.Outcome State Fault Refusal := int2 o (fun a b => a &&& b)
def execVor (o : OpR) : State → Host.Outcome State Fault Refusal := int2 o (fun a b => a ||| b)
def execVxor (o : OpR) : State → Host.Outcome State Fault Refusal := int2 o (fun a b => a ^^^ b)
def execVnot (o : OpR) : State → Host.Outcome State Fault Refusal := int1 o (fun a => ~~~ a)
def execVshl (o : OpR) : State → Host.Outcome State Fault Refusal := int2 o (fun a b => a <<< (b.toNat % 32))
def execVshr (o : OpR) : State → Host.Outcome State Fault Refusal := int2 o (fun a b => a >>> (b.toNat % 32))
def execVsra (o : OpR) : State → Host.Outcome State Fault Refusal := int2 o (fun a b => a.sshiftRight (b.toNat % 32))

/-! ## Reductions and scans (R305, R306) -/

/-- leaf(v) of FP32: flushed; a NaN is encoded by R82. -/
def fleaf (pol : Nat) (v : W32) : W32 :=
  match flush fp32 pol v.toNat with
  | .nan s => BitVec.ofNat 32 (nanResult fp32 pol s)
  | x => if x.isZero && v &&& 0x7F800000 == 0 then v &&& 0x80000000 else v

/-- A node: its operands are leaves or results of nodes, which are not flushed again. -/
def fnode (f : Rm → Nat → Nat → Nat → Nat) (rm : Rm) (pol : Nat) (x y : W32) : W32 :=
  BitVec.ofNat 32 (f rm (pol / 2 * 2) x.toNat y.toNat)

/-- One level of the tree. -/
def redLevel (node : W32 → W32 → W32) : List (Option W32) → List (Option W32)
  | x :: y :: r =>
    (match x, y with
     | none, y => y
     | x, none => x
     | some a, some b => some (node a b)) :: redLevel node r
  | l => l

/-- vred of R305, by its 4 levels. -/
def vred (on : BitVec 16) (a : Vec) (leaf : W32 → W32) (node : W32 → W32 → W32) : W32 :=
  let n := (range' 0 16).map (fun i => if on.getLsbD i then some (leaf (lane a i)) else none)
  let l := redLevel node
  ((l (l (l (l n)))).headD none).getD 0

/-- A reduction: every lane of d is written. -/
def reduce (ok : Bool) (o : OpR) (leaf : Nat → W32 → W32) (node : Nat → W32 → W32 → W32) :
    State → Host.Outcome State Fault Refusal :=
  runV (ok && isV o.d && isV o.a) o (fun g => do
    checkV o.d
    let a ← rdV o.a
    let pol ← view polOf
    wrV o.d ((vred g a (leaf pol) (node pol)).setWidth 512)
    pure .next)

def execVredAddF32 (o : OpR) : State → Host.Outcome State Fault Refusal :=
  reduce (okRm o.x) o fleaf (fnode fpAdd (rmX o.x))
def execVredMaxF32 (o : OpR) : State → Host.Outcome State Fault Refusal :=
  reduce (okPlain o.x) o fleaf (fnode (fun _ => fpMinMax true) .rne)
def execVredMinF32 (o : OpR) : State → Host.Outcome State Fault Refusal :=
  reduce (okPlain o.x) o fleaf (fnode (fun _ => fpMinMax false) .rne)
def execVredAddI32 (o : OpR) : State → Host.Outcome State Fault Refusal :=
  reduce (okPlain o.x) o (fun _ v => v) (fun _ x y => x + y)
def execVredMaxI32 (o : OpR) : State → Host.Outcome State Fault Refusal :=
  reduce (okPlain o.x) o (fun _ v => v) (fun _ => maxS)
def execVredMinI32 (o : OpR) : State → Host.Outcome State Fault Refusal :=
  reduce (okPlain o.x) o (fun _ v => v) (fun _ => minS)

/-- The running sums of the lanes that are on. -/
def scanFrom (on : BitVec 16) (node : W32 → W32 → W32) : Nat → Option W32 → List W32 → List W32
  | _, _, [] => []
  | i, acc, x :: r =>
    if on.getLsbD i then
      let v := match acc with
        | none => x
        | some s => node s x
      v :: scanFrom on node (i + 1) (some v) r
    else 0 :: scanFrom on node (i + 1) acc r

/-- A scan. -/
def scan (ok : Bool) (o : OpR) (leaf : Nat → W32 → W32) (node : Nat → W32 → W32 → W32) :
    State → Host.Outcome State Fault Refusal :=
  runV (ok && isV o.d && isV o.a) o (fun g => do
    checkV o.d
    let a ← rdV o.a
    let pol ← view polOf
    let old ← oldLanes o.d g
    wrV o.d (merge g (vecOf (scanFrom g (node pol) 0 none ((range' 0 16).map (fun i => leaf pol (lane a i))))) old)
    pure .next)

def execVscanAddF32 (o : OpR) : State → Host.Outcome State Fault Refusal :=
  scan (okRm o.x) o fleaf (fnode fpAdd (rmX o.x))
def execVscanAddI32 (o : OpR) : State → Host.Outcome State Fault Refusal :=
  scan (okPlain o.x) o (fun _ v => v) (fun _ x y => x + y)

/-! ## Special functions and VSCALE (R307, R308) -/

/-- A function with one rounding of its exact result. -/
def fround (o : OpR) (f : Fv → Fv) : State → Host.Outcome State Fault Refusal :=
  lanes3 (okRm o.x) o false false (fun pol a _ _ =>
    BitVec.ofNat 32 (convert (f (flush fp32 pol a.toNat)) fp32 (rmX o.x) pol))

/-- A function that gives one of two bracketing values. -/
def fspecial (o : OpR) (f : BitVec 32 → Fv → Nat → Nat) : State → Host.Outcome State Fault Refusal :=
  lanes3 (okPlain o.x) o false false (fun pol a _ _ =>
    let x := flush fp32 pol a.toNat
    let raw : W32 := if x.isZero then a &&& 0x80000000 else a
    BitVec.ofNat 32 (f raw x pol))

def execVrcp (o : OpR) : State → Host.Outcome State Fault Refusal := fround o fvRcp
def execVrsq (o : OpR) : State → Host.Outcome State Fault Refusal := fround o fvRsq
def execVsqrt (o : OpR) : State → Host.Outcome State Fault Refusal := fround o fvSqrt
def execVexp2 (o : OpR) : State → Host.Outcome State Fault Refusal := fspecial o fpExp2
def execVlog2 (o : OpR) : State → Host.Outcome State Fault Refusal := fspecial o fpLog2
def execVtanh (o : OpR) : State → Host.Outcome State Fault Refusal := fspecial o fpTanh

/-- RM and the low XIMM bits that a mask leaves. -/
def okRmX (x : XW) (width : Nat) : Bool :=
  x.scp == 0 && x.ord == 0 && decide (x.rm.toNat ≤ 4) && decide (x.ximm.toNat < 2 ^ width)

/-- (a − d) × b, the difference and the product exact (R308). -/
def scaleOf (rm : Rm) (pol : Nat) (t : Fv) (ops : List Fv) (b : Fv) : W32 :=
  BitVec.ofNat 32 (convert (orNan ops (fvMul t b)) fp32 rm pol)

def execVscaleF32 (o : OpR) : State → Host.Outcome State Fault Refusal :=
  lanes3 (okRmX o.x 0) o true true (fun pol a b d =>
    let x := flush fp32 pol a.toNat
    let z := flush fp32 pol d.toNat
    let y := flush fp32 pol b.toNat
    scaleOf (rmX o.x) pol (fvSum (rmX o.x) [x, z.negate]) [x, z, y] y)

/-- VSCALE.I32. Its difference is an exact integer, whose zero has no sign before the product; whether R80's −0 of a floating difference
holds for it too under RDN, R308 does not say: it enters as +0 (DESIGN CHOICE, log 48). -/
def execVscaleI32 (o : OpR) : State → Host.Outcome State Fault Refusal :=
  lanes3 (okRmX o.x 1) o true true (fun pol a b d =>
    let y := flush fp32 pol b.toNat
    scaleOf (rmX o.x) pol (.ofInt (a.toInt - d.toInt)) [y] y)

/-! ## Moves, selects, permutes (R309-R311) -/

def execVsel (o : OpR) : State → Host.Outcome State Fault Refusal :=
  runU (okNeg o.x && isV o.d && isV o.a && isV o.b) o.x.has (do
    checkV o.d
    let a ← rdV o.a
    let b ← rdV o.b
    let g ← view (fun s => govern s o.p o.x.neg)
    wrV o.d (merge g a b)
    pure .next)

def execVmov (o : OpR) : State → Host.Outcome State Fault Refusal := int1 o (fun a => a)

def execVbcast (o : OpR) : State → Host.Outcome State Fault Refusal :=
  runV (okPlain o.x && isV o.d) o (fun g => do
    checkV o.d
    let a ← rdG o.a
    let old ← oldLanes o.d g
    wrV o.d (merge g (splat (a.setWidth 32)) old)
    pure .next)

def execVextr (o : OpR) : State → Host.Outcome State Fault Refusal :=
  runR (okPlain o.x && isV o.a) o (do
    checkG o.d
    let a ← rdV o.a
    let b ← rdG o.b
    wrG o.d ((lane a (b.toNat % 16)).setWidth 64)
    pure .next)

def execVins (o : OpR) : State → Host.Outcome State Fault Refusal :=
  runR (okPlain o.x && isV o.d && !isQ o.d) o (do
    let a ← rdG o.a
    let b ← rdG o.b
    let old ← view (fun s => getD s.cx.v 0 o.d.toNat)
    wrV o.d (ofLanes (fun i => if i = b.toNat % 16 then a.setWidth 32 else lane old i))
    pure .next)

/-- A form whose lanes choose among the lanes of both sources. -/
def permute (ok : Bool) (o : OpR) (f : Vec → Vec → Nat → W32) : State → Host.Outcome State Fault Refusal :=
  runV (ok && isV o.d && isV o.a && isV o.b) o (fun g => do
    checkV o.d
    let a ← rdV o.a
    let b ← rdV o.b
    let old ← oldLanes o.d g
    wrV o.d (merge g (ofLanes (f a b)) old)
    pure .next)

def execVperm (o : OpR) : State → Host.Outcome State Fault Refusal :=
  permute (okPlain o.x) o (fun a b i => lane a ((lane b i).toNat % 16))

/-- The lane that a pattern takes, of the 32 of both sources (Table 10-3). -/
def shufIdx (pat rot i : Nat) : Nat :=
  match pat with
  | 0 => if i % 2 = 0 then i / 2 else 16 + i / 2
  | 1 => if i % 2 = 0 then 8 + i / 2 else 24 + i / 2
  | 2 => 2 * i
  | 3 => 2 * i + 1
  | 4 => i + rot
  | _ => 15 - i

def execVshuf (o : OpR) : State → Host.Outcome State Fault Refusal :=
  let pat := o.x.ximm.toNat % 16
  let rot := o.x.ximm.toNat / 16
  permute (okXimm o.x && decide (pat ≤ 5) && decide (rot < 16) && (pat == 4 || rot == 0) && (pat != 5 || o.b == 0)) o
    (fun a b i => let j := shufIdx pat rot i; if j < 16 then lane a j else lane b (j - 16))

/-- The lanes that are on, in ascending order. -/
def onLanes (g : BitVec 16) : List Nat := (range' 0 16).filter (fun i => g.getLsbD i)

/-- VCOMP: every lane of d is written. -/
def execVcomp (o : OpR) : State → Host.Outcome State Fault Refusal :=
  runV (okPlain o.x && isV o.d && isV o.a) o (fun g => do
    checkV o.d
    let a ← rdV o.a
    wrV o.d (vecOf ((onLanes g).map (lane a)))
    pure .next)

def execVexpd (o : OpR) : State → Host.Outcome State Fault Refusal :=
  runV (okPlain o.x && isV o.d && isV o.a) o (fun g => do
    checkV o.d
    let a ← rdV o.a
    let old ← oldLanes o.d g
    wrV o.d (merge g (ofLanes (fun i => lane a ((onLanes g).filter (· < i)).length)) old)
    pure .next)

/-! ## Conversion (R312, R313) -/

/-- Element e of 128 four-bit elements. -/
def nibOf (v : Vec) (e : Nat) : Nat := v.toNat / 2 ^ nibBit e % 16

/-- The lane that holds a result of a format: I8 and I4 sign-extended. -/
def cvtLane (d x : Nat) : W32 :=
  if d = 7 then (BitVec.ofNat 8 x).signExtend 32
  else if d = 8 then (BitVec.ofNat 4 x).signExtend 32 else BitVec.ofNat 32 x

def execVcvt (o : OpR) : State → Host.Outcome State Fault Refusal :=
  let d := o.x.ximm.toNat % 16
  let f := o.x.ximm.toNat / 16 % 16
  let gr := o.x.ximm.toNat / 256 % 8
  let four := f == 5 || f == 8 || f == 9
  runV (okRmX o.x 11 && convDst d && convSrc f && (four || gr == 0) && isV o.d && isV o.a) o (fun g => do
    checkV o.d
    let a ← rdV o.a
    let pol ← view polOf
    let old ← oldLanes o.d g
    wrV o.d (merge g (ofLanes (fun i =>
      let x := if four then nibOf a (16 * gr + i) else (lane a i).toNat % 2 ^ (8 * elemSize f)
      cvtLane d (elemEnc d (rmX o.x) pol (elemVal f pol x)))) old)
    pure .next)

/-! ## Codebooks and indexed weights (R314-R316) -/

/-- KLD of a number of bytes: d is of class K. -/
def kld (o : OpR) (bytes : Nat) : State → Host.Outcome State Fault Refusal :=
  runR (okS o.x && decide (o.d.toNat < 8) && isV o.a) o (do
    let a ← rdV o.a
    upd (fun s => { s with cx := { s.cx with k := setD s.cx.k 0 o.d.toNat (BitVec.ofNat 256 (a.toNat % 2 ^ (8 * bytes))) } })
    pure .next)

def execKldE4m3 (o : OpR) : State → Host.Outcome State Fault Refusal := kld o 16
def execKldBf16 (o : OpR) : State → Host.Outcome State Fault Refusal := kld o 32

/-- Entry j of a codebook, as an exact value (R76). -/
def cbEntry (k : BitVec 256) (isBf : Bool) (j : Nat) : Fv :=
  if isBf then decodeFp bf16 (k.toNat / 2 ^ (16 * j) % 2 ^ 16) else decodeFp e4m3 (k.toNat / 2 ^ (8 * j) % 2 ^ 8)

def execVlut (o : OpR) : State → Host.Outcome State Fault Refusal :=
  let gr := o.x.ximm.toNat % 8
  runV (okXimm o.x && decide (o.x.ximm.toNat < 16) && isV o.d && isV o.a && decide (o.b.toNat < 8)) o (fun g => do
    checkV o.d
    let a ← rdV o.a
    let pol ← view polOf
    let kb ← view (fun s => kReg s.cx o.b.toNat)
    let old ← oldLanes o.d g
    wrV o.d (merge g (ofLanes (fun i => BitVec.ofNat 32
      (convert (cbEntry kb (o.x.ximm.getLsbD 3) (nibOf a (16 * gr + i))) fp32 .rne (pol / 4 % 2 * 4)))) old)
    pure .next)

def execVqdec (o : OpR) : State → Host.Outcome State Fault Refusal :=
  let sp := o.x.ximm.getLsbD 0
  let gr := o.x.ximm.toNat / 2
  runV (okXimm o.x && decide (gr < 16) && isV o.d && isV o.a) o (fun g => do
    checkV o.d
    let a ← rdV o.a
    let b ← rdG o.b
    let idx (k : Nat) : Nat := a.toNat / 2 ^ (16 * (2 * gr + k)) % 2 ^ 16
    let entry (k : Nat) : Act Nat :=
      if (onLanes g).any (fun i => i / 8 == k) then do
        let ea := b + BitVec.ofNat 64 (4 * (idx k / 2 ^ 7 % 256))
        let x ← xlAny sp ea .rd 4 false
        let bs ← loadBytes x 4 ea
        pure (natOfBytes bs)
      else pure 0
    let e0 ← entry 0
    let e1 ← entry 1
    let old ← oldLanes o.d g
    wrV o.d (merge g (ofLanes (fun i => BitVec.ofNat 32
      (convert (halves ((vq2 (idx (i / 8)) (if i < 8 then e0 else e1)).getD (i % 8) 0)) fp32 .rne 0))) old)
    pure .next)

/-! ## Four-way dot products (R317) -/

/-- Byte j of a lane. -/
def laneByte (x : W32) (j : Nat) : Nat := x.toNat / 2 ^ (8 * j) % 256

def execVdot4I8 (o : OpR) : State → Host.Outcome State Fault Refusal :=
  lanes3 (okPlain o.x) o true true (fun _ a b d =>
    d + BitVec.ofInt 32 ((range' 0 4).foldl (fun t j => t + sgn 8 (laneByte a j) * sgn 8 (laneByte b j)) 0))

def execVdot4E4m3 (o : OpR) : State → Host.Outcome State Fault Refusal :=
  lanes3 (okRm o.x) o true true (fun pol a b d =>
    let z := flush fp32 pol d.toNat
    let xs := (range' 0 4).map (fun j => flush e4m3 pol (laneByte a j))
    let ys := (range' 0 4).map (fun j => flush e4m3 pol (laneByte b j))
    let rm := rmX o.x
    BitVec.ofNat 32 (convert (orNan (z :: xs ++ ys) (fvSum rm (z :: (xs.zip ys).map (fun p => fvMul p.1 p.2)))) fp32 rm pol))

end Sys2Proof.Machine
end

