-- ==== Sys2Proof/Machine/TaskOps.lean ====
section
/-! DEFINITION. The TASK major: spawning and ending, futures, groups, barriers, rings (spec/11 R319-R331). -/

namespace Sys2Proof.Machine
open Sys2Proof

/-- A named object of a size, aligned to it, that the current task updates, checked as R319 states: the update is a timestamp task's
access to a line of an ORD region (R19, R201); what is queued at its bank is performed first (R53), and what the
context's own stores have written of it goes before (R158). read says whether the form reads the object. -/
def object (ea : W64) (size : Nat) (read : Bool) : Act Nat := do
  let x ← xlObj ea size
  noteOrdered x true
  upd (fun s => publishWord (drainBank s (3 * siteKey x.loc)) s.cur x.loc size)
  let bad ← view (fun s => read && poisoned s x.loc size)
  if bad then trapAt cECC ea else pure x.loc

/-- A named object that the current task only reads, as a load does: its place and its bytes, the task's own among them, which stay in
its buffer (R62, R319, Table 6-2). -/
def objectRead (ea : W64) (size : Nat) : Act (Nat × List Byte) := do
  let x ← xlObj ea size
  let bs ← loadBytes x size ea
  pure (x.loc, bs)

/-- An update at an object's home, which may fault. -/
def atHome (ea : W64) (f : State → Except Nat State) : Act Unit := do
  let r ← view f
  match r with
  | .error c => trapAt c ea
  | .ok s' => upd (fun _ => s')

/-- The prefix fields of a form with a scope, and its scope. -/
def scp4 (x : XW) : Nat := scopeOf x 4

/-! ## Spawning and ending (R320-R322) -/

/-- The 64-byte record at an address, read as one load. -/
def readPacket (sp : Bool) (ea : W64) : Act (BitVec 512) := do
  let bs ← loadWhole sp ea 64
  pure (packetOf bs)

/-- R320's checks of a spawn record. -/
def spawnBad (s : State) (p : BitVec 512) (gang : Bool) : Bool :=
  pk p 7 0 != 1 || launchBad s p || (gang != (pk p 9 8 == 2))

/-- The completion scope of a child or of an end: SCP − 1, or a default. -/
def cscOf (x : XW) (dflt : Nat) : Nat := if x.scp = 0 then dflt else x.scp.toNat - 1

/-- A spawn by a parent of a domain that reaches a Dispatcher: refused by R200 or R251, or performed. own: a child of a task in its
own domain. -/
def launchSpawn (s : State) (cid pdom : Nat) (p : BitVec 512) (ts : W64) (csc : Nat) (parent : Option Tid) (own gang : Bool) :
    State :=
  let die := cidDie cid
  if (dispAt s die).cancelled then s
  else if !own && tsTooLow s (pkDom p) ts then refuse s die 0 2 0 (faultAt cTSORDER 0)
  else
    match handlerEntry s die (pkHidx p) with
    | .error f => refuse s die 0 2 0 f
    | .ok e => spawn (entryNote s die (pkHidx p)) cid pdom p ts csc parent gang e

/-- TSPAWN and TSPAWNG. -/
def tspawn (o : OpR) (gang : Bool) : State → Host.Outcome State Fault Refusal :=
  runR (okSScp o.x) o (do
    let a ← rdG o.a
    let ts ← rdG o.b
    let p ← readPacket (o.x.ximm == 1) a
    let bad ← view (fun s => spawnBad s p gang)
    let csc := cscOf o.x (pk p 24 22)
    let me ← view (fun s => s.cx.task)
    let isT ← view (fun s => isTs s s.cx)
    match me with
    | none => pure .next
    | some t =>
      let own := isT && t.tid.dom == pkDom p
      if bad then trapAt cCFGBAD a
      else if own && ts.ult t.tid.ts then trapAt cTSORDER a
      else if isT && !own then
        let _ ← counted (do
          upd (fun s => { s with cx := { s.cx with held := s.cx.held ++ [.spawn p ts csc gang] } })
          pure 0)
        pure .next
      else
        let full ← view (fun s => spawnFull s s.cur t.tid.dom p ts gang)
        let die ← view (fun s => cidDie s.cur)
        if full then waitFor (.room (.spill die)) else pure ()
        let _ ← counted (do
          release
          upd (fun s => launchSpawn s s.cur t.tid.dom p ts csc (if own then some t.tid else none) own gang)
          pure 0)
        pure .next)

def execTspawn (o : OpR) : State → Host.Outcome State Fault Refusal := tspawn o false
def execTspawng (o : OpR) : State → Host.Outcome State Fault Refusal := tspawn o true

def execTend (o : OpR) : State → Host.Outcome State Fault Refusal :=
  runR (okScp o.x) o (do
    let csc ← view (fun s => (s.cx.task.map (·.csc)).getD 0)
    endSelf (cscOf o.x csc))

def execTabort (o : OpR) : State → Host.Outcome State Fault Refusal :=
  runR (okNeg o.x) o (do
    upd (fun s => abortSelf s s.cur)
    pure .gone)

/-! ## Futures (R323-R327) -/

def execFutres (o : OpR) : State → Host.Outcome State Fault Refusal :=
  runR (okScp o.x) o (do
    let a ← rdG o.a
    let b ← rdG o.b
    needFrontier
    let f ← object a 8 true
    releaseAt (scp4 o.x)
    atHome a (fun s => futResolve s f b.toNat)
    pure .next)

def execFutreg (o : OpR) : State → Host.Outcome State Fault Refusal :=
  runR (okScp o.x) o (do
    let a ← rdG o.a
    let b ← rdG o.b
    needFrontier
    let c ← object b 64 false
    let f ← object a 8 true
    releaseAt (scp4 o.x)
    atHome a (fun s => futRegister s f (c + 48) c 0)
    pure .next)

/-- The checks of a join block: ADDR, then ALIGN, then PROT, over its 320 bytes (R326). -/
def joinBlock (s : State) (ea : W64) (super : Bool) : Except FaultInfo Nat :=
  let a := ea.toNat
  let ls := (range' 0 5).map (fun i => a + 64 * i)
  let at_ (c l : Nat) : Except FaultInfo Nat := .error (faultAt c (BitVec.ofNat 64 l))
  match (ls ++ [a + 319]).find? (fun l => decide (2 ^ 32 ≤ l) || sPlace s l == .absent) with
  | some l => at_ cADDR l
  | none =>
    if a % 64 ≠ 0 then at_ cALIGN a
    else
      match ls.find? (fun l => sPlace s l != .bank) with
      | some l => at_ cALIGN l
      | none =>
        match ls.find? (fun l => !super && (srgn s l).2) with
        | some l => at_ cPROT l
        | none => .ok a

/-- FUTJOIN: the counter, in its turn at port M (R41) and after what the context's own stores have written of the block (R158), then the
lanes' registrations in ascending order. -/
def execFutjoin (o : OpR) : State → Host.Outcome State Fault Refusal :=
  runV (okScp o.x && isV o.b) o (fun g => do
    let a ← rdG o.a
    let b ← rdV o.b
    needFrontier
    let s ← view id
    let j ← orTrap (joinBlock s a s.cx.mode)
    (range' 0 5).forM (fun i => noteOrdered
      { va := a, t := 0, pa := j, loc := j + 64 * i, c := false, o := (srgn s (j + 64 * i)).1, p := false, hp := false } true)
    releaseAt (scp4 o.x)
    upd (fun s => (range' 0 5).foldl (fun s i => publishWord s s.cur (j + 64 * i) 64) (portTurn s false j))
    upd (fun s => homeWrite s (j + 56) (bytesOfNat 2 (onLanes g).length ++ [0, 0, 0, 0, 2, 0]))
    (onLanes g).forM (fun m => atLane m (keepOn do
      let ea : W64 := (lane b m).setWidth 64
      let f ← object ea 8 true
      atHome ea (fun s => futRegister s f (j + 64 + 16 * m) j 1)))
    pure .next)

/-! ## Groups (R328, R329) -/

/-- A group object, whose reserved bits are clear: its address, MEMB, ARRV, PH, CONT. -/
def groupObj (ea : W64) : Act (Nat × Nat × Nat × Bool × Nat) := do
  let a ← object ea 16 true
  let g ← view (fun s => groupAt s a)
  match g with
  | none => trapAt cCFGBAD ea
  | some (m, v, ph, c) => pure (a, m, v, ph, c)

/-- Sets the membership of the current context. -/
def setMember (g : Option (Nat × Option Bool)) : Act Unit := upd (fun s => { s with cx := { s.cx with group := g } })

def execGjoin (o : OpR) : State → Host.Outcome State Fault Refusal :=
  runR (okNeg o.x) o (do
    let ea ← rdG o.a
    needFrontier
    let (a, m, v, ph, _) ← groupObj ea
    let g ← view (·.cx.group)
    if g.isSome || m == 65535 then trapAt cCFGBAD ea
    else
      upd (fun s => setGroup s a (m + 1) v ph)
      setMember (some (a, none))
      pure .next)

def execGleave (o : OpR) : State → Host.Outcome State Fault Refusal :=
  runR (okScp o.x) o (do
    let ea ← rdG o.a
    needFrontier
    let (a, _, _, _, _) ← groupObj ea
    let g ← view (·.cx.group)
    match g with
    | none => trapAt cCFGBAD ea
    | some (b, ar) =>
      if b ≠ a then trapAt cCFGBAD ea
      else
        releaseAt (scp4 o.x)
        upd (fun s => groupLeave s a ar)
        setMember none
        pure .next)

def execGarr (o : OpR) : State → Host.Outcome State Fault Refusal :=
  runR (okScp o.x) o (do
    checkG o.d
    let ea ← rdG o.a
    needFrontier
    let v ← once (do
      let (a, m, v, ph, c) ← groupObj ea
      let g ← view (·.cx.group)
      match g with
      | none => trapAt cCFGBAD ea
      | some (b, ar) =>
        if b ≠ a || ar == some ph then trapAt cCFGBAD ea
        else
          releaseAt (scp4 o.x)
          upd (fun s => groupFlip s a m (v + 1) ph c)
          setMember (some (a, some ph))
          pure (truth ph))
    wrG o.d v
    pure .next)

/-- A wait for a condition on an object: at once, or once an event has ended it. What the read of the object has recorded stands. -/
def awaitPhase (ph want : Bool) (w : Wait) : Act Unit := do
  let g ← view (·.cx.got)
  if g.isSome || ph != want then pure () else waitKeep w

def execGwait (o : OpR) : State → Host.Outcome State Fault Refusal :=
  runR (okScp o.x) o (do
    let ea ← rdG o.a
    let b ← rdG o.b
    let (a, bs) ← objectRead ea 16
    match groupOf bs with
    | none => trapAt cCFGBAD ea
    | some (_, _, ph, _) => do
      awaitPhase ph (b.getLsbD 0) (.group a (b.getLsbD 0))
      acquire (scp4 o.x)
      pure .next)

/-! ## Barriers (R330) -/

def execBarinit (o : OpR) : State → Host.Outcome State Fault Refusal :=
  runR (okNeg o.x) o (do
    let ea ← rdG o.a
    let b ← rdG o.b
    needFrontier
    let a ← object ea 16 false
    let v := b.toNat
    if bits v 31 17 ≠ 0 then trapAt cCFGBAD ea
    else if bits v 15 0 = 0 ∧ bits v 63 32 = 0 then trapAt cBAROVER ea
    else
      let n := bits v 15 0
      let r := bits v 63 32
      upd (fun s => homeWrite s a (bytesOfNat 16 (n + 2 ^ 16 * n + 2 ^ 32 * r + 2 ^ 64 * r + 2 ^ 96 * bits v 16 16)))
      pure .next)

/-- An update of a barrier, with the phase that it read. -/
def barStep (ea : W64) (a arr : Nat) (bytes : Int) : Act W64 := do
  let r ← view (fun s => barUpdate s a arr bytes)
  match r with
  | .error c => trapAt c ea
  | .ok (ph, s') => do
    upd (fun _ => s')
    pure (truth ph)

def execBararr (o : OpR) : State → Host.Outcome State Fault Refusal :=
  runR (okScp o.x) o (do
    checkG o.d
    let ea ← rdG o.a
    needFrontier
    let v ← once (do
      let a ← object ea 16 true
      releaseAt (scp4 o.x)
      barStep ea a 1 0)
    wrG o.d v
    pure .next)

def execBarexp (o : OpR) : State → Host.Outcome State Fault Refusal :=
  runR (okNeg o.x) o (do
    checkG o.d
    let ea ← rdG o.a
    let b ← rdG o.b
    needFrontier
    let v ← once (do
      let a ← object ea 16 true
      if b = 0 || decide (2 ^ 31 ≤ b.toNat) then trapAt cBAROVER ea else barStep ea a 0 b.toNat)
    wrG o.d v
    pure .next)

def execBarwait (o : OpR) : State → Host.Outcome State Fault Refusal :=
  runR (okScp o.x) o (do
    let ea ← rdG o.a
    let b ← rdG o.b
    let (a, bs) ← objectRead ea 16
    awaitPhase (bit (natOfBytes bs) 96) (b.getLsbD 0) (.barrier a (b.getLsbD 0))
    acquire (scp4 o.x)
    pure .next)

/-! ## Rings (R331) -/

/-- A ring header that R140 accepts, as a read of it gives it. -/
def ringRead (ea : W64) : Act (Nat × Ring) := do
  let (a, bs) ← objectRead ea 32
  match ringOf bs with
  | none => trapAt cCFGBAD ea
  | some r => pure (a, r)

/-- A ring header that R140 accepts, to be updated. -/
def ringObj (ea : W64) : Act (Nat × Ring) := do
  let a ← object ea 32 true
  let r ← view (fun s => ringAt s a)
  match r with
  | none => trapAt cCFGBAD ea
  | some r => pure (a, r)

def execRawait (o : OpR) : State → Host.Outcome State Fault Refusal :=
  runR (okScp o.x) o (do
    checkG o.d
    let ea ← rdG o.a
    let (a, r) ← ringRead ea
    if r.wp = r.rp then waitKeep (.ring a)
    else
      acquire (scp4 o.x)
      wrG o.d (BitVec.ofNat 64 (r.slot r.rp))
      pure .next)

def execRrel (o : OpR) : State → Host.Outcome State Fault Refusal :=
  runR (okNeg o.x) o (do
    let ea ← rdG o.a
    needFrontier
    let (a, r) ← ringObj ea
    if r.wp = r.rp then trapAt cRINGUNDER ea
    else
      upd (fun s => homeWrite s (a + 16) (bytesOfNat 4 (r.rp + 1).toNat))
      pure .next)

def execRpoll (o : OpR) : State → Host.Outcome State Fault Refusal :=
  runR (okScp o.x) o (do
    checkG o.d
    let ea ← rdG o.a
    let (_, r) ← ringRead ea
    if r.wp = r.rp then do
      wrG o.d 0
      pure .next
    else
      acquire (scp4 o.x)
      wrG o.d (BitVec.ofNat 64 (2 ^ 32 + r.slot r.rp))
      pure .next)

end Sys2Proof.Machine
end

