-- ==== Sys2Proof/Machine/Copies.lean ====
section
/-! DEFINITION. Copy engines: queues, packets and their checks, transfers, completion, and faults of copies (spec/05
R120-R153, spec/04 R115, R116). -/

namespace Sys2Proof.Machine
open Sys2Proof

/-- The site of an engine, 16 * die + number (R437). -/
def engineSite (s : State) (eng : Nat) : Nat :=
  2304 * (eng / 16) + (siteOf s (eng / 16) 0xD (eng % 16)).getD 0

/-- The Mordant entry that a packet selects (R115). -/
def cpEntry (s : State) (eng : Nat) (p : BitVec 512) : Nat := mordant s (engineSite s eng) 2 (cpFilt p)

/-- The filter checks of R79 and R116, but for the element count of XPOSE8. -/
def filtBad (fmt kind e : Nat) : Bool :=
  let same := bits e 7 4 == fmt
  decide (4 < bits e 14 12) || decide (14 ≤ bits e 7 4) || decide (14 ≤ bits e 11 8) ||
  (match bits e 3 0 with
   | 0 => false
   | 1 => !(same && convSrc fmt && convDst (bits e 11 8))
   | 2 => !(kind == 0 && same && bits e 11 8 == fmt && bmvFmt fmt && decide (0 < bits e 47 32))
   | 3 => !(kind == 0 && same && !packed fmt)
   | 4 => !(same && [5, 8, 9, 0xA].contains fmt)
   | _ => true)

/-- The checks of R128, in order; and R134's on I0 and I1, whose place among them R128 does not give: after the filter checks
(DESIGN CHOICE, log 24). -/
def copyBad (s : State) (eng : Nat) (p : BitVec 512) : Option Nat :=
  let kind := cpKind p
  let e := cpEntry s eng p
  let op := bits e 3 0
  let fmt := cpFmt p
  let df := if op = 1 then bits e 11 8 else fmt
  let high (sp : Bool) (lo : Nat) : Bool := sp && pk p (lo + 63) (lo + 32) != 0
  let off (lo : Nat) : Bool := pk p (lo + 4) lo != 0
  if pk p 15 15 ≠ 0 ∨ pk p 31 31 ≠ 0 ∨ kind = 3 ∨ 4 < cpCsc p then some cCFGBAD
  else if high (cpSsp p) 64 ∨ high (cpDsp p) 128 then some cCFGBAD
  else if kind = 1 ∧ (high (cpSsp p) 192 ∨ high (cpDsp p) 256 ∨ high (cpSsp p) 320 ∨ high (cpDsp p) 384) then some cCFGBAD
  else if 14 ≤ fmt ∨ (kind = 1 ∧ fmt = 13) then some cCFGBAD
  else if kind = 2 then none
  else if filtBad fmt kind e then some cCFGBAD
  else if kind = 1 ∧ cpI1 p < cpI0 p then some cCFGBAD
  else if op = 3 ∧ cpCount p % 64 ≠ 0 then some cDESC
  else if op = 4 then none
  else if kind = 0 ∧ packed fmt ∧ (off 64 ∨ off 256 ∨ off 352) then some cDESC
  else if kind = 0 ∧ packed df ∧ op ≠ 2 ∧ (off 128 ∨ off 304 ∨ off 400) then some cDESC
  else if kind = 1 ∧ !cpNoval p ∧ ((packed fmt ∧ off 320) ∨ (packed df ∧ off 384)) then some cDESC
  else none

/-! ## Acceptance (R126, R128, R129, R332) -/

/-- An engine accepts a packet that passes R128's checks, or refuses it with a cause. -/
def acceptCopy (s : State) (eng : Nat) (p : BitVec 512) (queue : Option (Nat × Nat)) (super : Bool)
    (ident : Option Ident) (cid : Option Nat) : Except Nat State :=
  if pk p 7 0 ≠ 1 then .error cCFGBAD
  else
    match copyBad s eng p with
    | some c => .error c
    | none =>
      let c : Copy := { id := s.copyNext, queue := queue, packet := p, super := super, ident := ident, cid := cid,
                        filt := cpEntry s eng p, started := !cpFence p, phase := .pos, next := 0, wnext := 0, got := [], wr := [],
                        p0 := 0, prev := 0, prevW := 0, bytes := 0, segs := [], issued := false, pend := false, faulted := none,
                        retryAt := 0, badPage := none, rsv := none, point := none, abandoned := false }
      .ok (updEngine { s with copyNext := s.copyNext + 1 } eng (fun g => { g with copies := g.copies ++ [c] }))

/-- A copy leaves its engine: it has signalled, or has been abandoned. -/
def endCopy (s : State) (eng id : Nat) : State :=
  updEngine s eng (fun g => { g with copies := g.copies.filter (fun c => c.id ≠ id) })

/-- A copy of an engine. -/
def copyAt (s : State) (eng id : Nat) : Option Copy := (engineAt s eng).copies.find? (fun c => c.id = id)

/-- Whether a queue waits under FENCE: a fenced copy of it, on whichever engine took it, has not started (R129). -/
def fenceWaits (s : State) (q : Nat) : Bool :=
  s.engines.any (fun g => g.2.copies.any (fun c => !c.started && (match c.queue with
    | some (n, _) => n == q
    | none => false)))

/-- Whether a fenced copy may start: every earlier copy of its queue, or direct copy of its context, on any engine, has signalled or
been abandoned (R129, R332). -/
def fenceFree (s : State) (c : Copy) : Bool :=
  let earlier (x : Copy) : Bool := decide (x.id < c.id) && !x.abandoned &&
    (match c.queue, x.queue with
     | some (a, _), some (b, _) => a == b
     | none, none => x.cid == c.cid
     | _, _ => false)
  !s.engines.any (fun g => g.2.copies.any earlier)

/-- FENCE_COPY_START. -/
def fenceStart (s : State) (eng id : Nat) : State :=
  match copyAt s eng id with
  | none => s
  | some c => if !c.started && fenceFree s c then updCopy s eng id (fun c => { c with started := true }) else s

/-! ## Queues (R121-R126) -/

/-- Whether the copy queues are served (Table 5-1). -/
def cqOn (s : State) : Bool := bit (dev s 0x100300) 0

/-- The queues of an engine in the order in which its next take looks at them (R126). -/
def queueTurn (g : Engine) : List (Nat × W64 × Option Nat) :=
  g.queues.filter (fun q => decide (g.lastQueue < q.1)) ++ g.queues.filter (fun q => decide (q.1 ≤ g.lastQueue))

/-- The queue that an engine's next take serves: the first in turn whose head is neither empty nor under FENCE, of those that its AGT's
TLB translates. -/
def nextQueue (s : State) (eng : Nat) : Option (Nat × W64) :=
  let g := engineAt s eng
  if g.stopped || !cqOn s || decide (16 ≤ g.copies.length) then none
  else
    ((queueTurn g).find? (fun q => !fenceWaits s q.1 && (queueLacks s (queueAgt eng) q.2.1 none).isNone &&
      (match (slotOf s (queueAgt eng) q.2.1).1 with
      | .empty => false
      | _ => true))).map (fun q => (q.1, q.2.1))

/-- The walk that an engine asks for to look at a queue that it serves (R32). -/
def queueAsk (s : State) (eng q : Nat) : Option State :=
  if (engineAt s eng).stopped || !cqOn s then none
  else ((engineAt s eng).queues.find? (fun x => x.1 = q)).bind (fun x =>
    (queueLacks s (queueAgt eng) x.2.1 none).map (agtAsk s (queueAgt eng)))

/-- An engine serves a queue no more until the next table read; the fault of a walk for it has been reported. -/
def dropQueue (s : State) (eng q : Nat) : State :=
  updEngine s eng (fun g => { g with queues := g.queues.filter (fun x => x.1 ≠ q), badPage := none })

/-- COPY_QUEUE_TAKE (R124): the packet is accepted, with the privilege of its writer (R135), or refused with a record. -/
def queueTake (s0 : State) (eng q : Nat) : State :=
  match queueAsk s0 eng q with
  | some s1 => s1
  | none =>
  match nextQueue s0 eng with
  | none => s0
  | some (n, hdr) =>
    if n ≠ q then s0
    else
      let die := eng / 16
      let s := queueUsed s0 (queueAgt eng) hdr
      match slotOf s0 (queueAgt eng) hdr with
      | (.empty, _, _) => s
      | (.disabled, _, _) => dropQueue s eng q
      | (.bad f ridx, _, _) => refuse (dropQueue s eng q) die q 1 ridx f
      | (.packet p v ridx, sl, hd) =>
        let s1 := updEngine (takeSlot s sl hd ridx) eng (fun g => { g with
          lastQueue := q
          queues := g.queues.map (fun x => if x.1 = q then (x.1, x.2.1, none) else x) })
        let who := look s.authors (sl / 64)
        let r := if v ≠ 1 then .error cCFGBAD
          else acceptCopy s1 eng p (some (q, ridx)) (who.any (·.super)) (who.bind (·.ident)) none
        match r with
        | .ok s2 => s2
        | .error c => refuse s1 die q 1 ridx (faultAt c 0)

/-- A queue's WIDX, RIDX, whether the head slot is empty, and where its second line lies; each read by its home, which recalls a line
that an atomic engine holds (R56). Where the header or the slot cannot be read, the engine's take of the queue reports the fault, if it
is the second line's or the slot's; of one of the first line, which only R125 reads, the spec says nothing: no stall is raised and no
record is written (DESIGN CHOICE, log 24). -/
def queueView (s : State) (u : Agt) (hdr : W64) : Option (Nat × Nat × Bool × Nat) :=
  match queueXl s u hdr 64, slotOf s u hdr with
  | .ok l, (.empty, _, hd) => some (rdHome s l 8, rdHome s hd 8, true, hd)
  | .ok l, (.packet _ _ r, _, hd) => some (rdHome s l 8, r, false, hd)
  | _, _ => none

/-- What a claimed and empty head slot asks of the engine now: nothing, to note the time (again), or to set STL (R125). Where software
clears STL and the slot stays empty, the time counts from the same start, and STL is set again (DESIGN CHOICE, log 24). -/
def stallDue (s : State) (eng : Nat) (q : Nat × W64 × Option Nat) : Option (Option Nat × Option Nat) :=
  let claimed : Option Nat := match queueView s (queueAgt eng) q.2.1 with
    | some (w, r, e, hd) => if e ∧ r < w then some hd else none
    | none => none
  match claimed, q.2.2 with
  | none, none => none
  | none, some _ => some (none, none)
  | some _, none => some (some s.cycle, none)
  | some hd, some t =>
    if t + 2 ^ 20 ≤ s.cycle ∧ !bit (rdHome s (hd + 17) 1) 0 then some (some t, some (hd + 17)) else none

/-- COPY_QUEUE_STALL (R125). -/
def queueStall (s : State) (eng q : Nat) : State :=
  match (engineAt s eng).queues.find? (fun x => x.1 = q) with
  | none => s
  | some x =>
    match stallDue s eng x with
    | none => s
    | some (t, stl) =>
      let s1 := updEngine s eng (fun g => { g with queues := g.queues.map (fun x => if x.1 = q then (x.1, x.2.1, t) else x) })
      match stl with
      | none => s1
      | some l => homeWrite s1 l [BitVec.ofNat 8 (rdHome s1 l 1 + 1)]

/-! ## What a transfer reads and writes (R130-R133) -/

/-- The base of an element's row on a side. -/
def Lay.srcRow (l : Lay) (e : Nat) : Int :=
  let (_, i1, i2) := l.index e
  l.s0 + i2 * l.s2 + i1 * l.s1
def Lay.dstRow (l : Lay) (e : Nat) : Int :=
  let (_, i1, i2) := l.index e
  l.d0 + i2 * l.d2 + i1 * l.d1

/-- Where element i of a row lies: its byte, and for four bits whether it is the high nibble. A row that begins inside a
packet begins at the low nibble that its address names (R85, R87). -/
def place (fmt : Nat) (row : Int) (i : Nat) : W64 × Bool :=
  if fourBit fmt then
    let o := (row % 32).toNat
    let j := o + i
    (BitVec.ofInt 64 (row - (o : Int) + ((32 * (j / 64) + j % 32 : Nat) : Int)), decide (32 ≤ j % 64))
  else (BitVec.ofInt 64 (row + ((i * elemSize fmt : Nat) : Int)), false)

/-- Where an element of the source lies. -/
def Lay.srcAt (l : Lay) (e : Nat) : W64 × Bool := place l.sf (l.srcRow e) (l.off + e % l.n0)

/-- Bytes of an element as it is read or written; a nibble is reached by its byte. -/
def cellSize (fmt : Nat) : Nat := if fourBit fmt then 1 else elemSize fmt

/-- The element of the source that a destination element takes (XPOSE8, Table 4-6). -/
def srcOf (l : Lay) (e : Nat) : Nat := if l.op = 3 then e / 64 * 64 + 8 * (e % 8) + e % 64 / 8 else e

/-- The place of a row's element within its packet, as an address's offset makes it. -/
def packetAt (l : Lay) (e : Nat) : Nat := ((l.dstRow e) % 32).toNat + e % l.n0

/-- How many elements, from one on, are written together: a block of ZREM, the rest of a packet of four-bit elements,
else one. -/
def unitLen (c : Copy) (l : Lay) (e : Nat) : Nat :=
  if l.op = 2 then min (bits c.filt 47 32) (l.total - e)
  else if fourBit l.df then min (64 - packetAt l e % 64) (l.n0 - e % l.n0)
  else 1

/-- The bytes of a block, a packet or an element. -/
def unitSize (c : Copy) (l : Lay) : Nat :=
  if l.op = 2 then bmvSize (bits c.filt 47 32) (bits c.filt 63 48) l.df else if fourBit l.df then 32 else elemSize l.df

/-- Where the unit that begins at an element is written. -/
def unitAt (c : Copy) (l : Lay) (e : Nat) : W64 :=
  if l.op = 2 then BitVec.ofInt 64 (l.d0 + (e / bits c.filt 47 32 * unitSize c l : Nat))
  else if fourBit l.df then BitVec.ofInt 64 (l.dstRow e - (l.dstRow e) % 32 + (32 * (packetAt l e / 64) : Nat))
  else (place l.df (l.dstRow e) (e % l.n0)).1

/-- The aligned bytes that one request may cover (R39, R420). -/
def reqSize : Nat := 128

/-- How many elements below a bound, from one on, one write request takes: units that follow one another in an aligned block, so that
every word that the copy covers wholly is written whole (R39, R132, R157); fuel counts the units. -/
def groupLen (c : Copy) (l : Lay) (bound : Nat) : Nat → Nat → Nat
  | 0, e => unitLen c l e
  | f + 1, e =>
    let n := unitLen c l e
    let a := (unitAt c l e).toNat
    let b := (unitAt c l (e + n)).toNat
    let blk := reqSize
    if l.op ≠ 2 ∧ e + n < l.total ∧ e + n + unitLen c l (e + n) ≤ bound ∧ b = a + unitSize c l ∧ b / blk = a / blk
    then n + groupLen c l bound f (e + n) else n

/-- How many elements, from one on, one read request takes: those that lie in one aligned block (R39). -/
def readLen (c : Copy) (l : Lay) : Nat → Nat → Nat
  | 0, _ => 1
  | f + 1, e =>
    let blk := reqSize
    if e + 1 < l.total ∧ (l.srcAt (e + 1)).1.toNat / blk = (l.srcAt e).1.toNat / blk then 1 + readLen c l f (e + 1) else 1

/-! ## Reading (R132, R135, R148) -/

/-- A fault of a side at an element. -/
structure SideFault where
  f : FaultInfo
  wside : Bool
  /-- The element at which the AGT stopped; the stream position that the record names. -/
  at_ : Nat
  pos : Nat × Nat × Nat

/-- How the reads or the writes of a step end: done; they wait for a walk, for a mirror point or for room on a link; a fault. -/
inductive MoveEnd where
  | done | walk | peer | fault (x : SideFault)

/-- Whether an access of a peer is held back, for its mirror point or by full links (R410, R422). -/
def peerHeld (s : State) (gate : Bool) (xs : List (Xl × Nat)) : Bool := anyPeer xs && (gate || !injectRoom s 3)

/-- A pos entry as it is read (R133, R134): the entry less pos[I0] and the copy that has read it; or a fault, of an entry below the one
before it, or of values of packed elements that do not begin at a packet (R87; DEDUCED, log 24). -/
def posEntry (c : Copy) (e v : Nat) : Except (Nat × Nat) (Nat × Copy) :=
  let side := packed (cpFmt c.packet) && bits c.filt 3 0 != 4 && !cpNoval c.packet
  if e = 0 then
    if side ∧ v % (if cpFmt c.packet = 0xB then 16 else 64) ≠ 0 then .error (cDESC, cpI0 c.packet) else .ok (0, { c with p0 := v, prev := v })
  else if v < c.prev then .error (cCFGBAD, cpI0 c.packet + e - 1)
  else .ok (v - c.p0, { c with prev := v })

/-- The read AGT reads n elements, up to a fault or a wait. -/
def readRun (eng : Nat) (l : Lay) (gate : Bool) : Nat → State → Copy → State × Copy × MoveEnd
  | 0, s, c => (s, c, .done)
  | n + 1, s, c =>
    let e := c.next
    let u := engineAgt eng false c.id
    let a := l.srcAt e
    let stop (f : FaultInfo) (pos : Nat × Nat × Nat) : State × Copy × MoveEnd :=
      (s, c, .fault { f := f, wside := false, at_ := e, pos := pos })
    match agtWaits s u (cpSsp c.packet) a.1 (cellSize l.sf) with
    | some s1 => (s1, c, .walk)
    | none =>
      match agtTargets s u (cpSsp c.packet) c.super .rd a.1 (cellSize l.sf) with
      | .error f => stop f (l.index e)
      | .ok xs =>
        if peerHeld s gate xs then (s, c, .peer)
        else
          match agtRead s u (cpSsp c.packet) c.super a.1 (cellSize l.sf) with
          | .error f => stop f (l.index e)
          | .ok ((bs, bad), s1) =>
            let w := natOfBytes bs
            let v := if fourBit l.sf then (if a.2 then w / 16 else w % 16) else w
            match (if cpKind c.packet = 1 ∧ c.phase = .pos then posEntry c e v else .ok (v, c)) with
            | .error (k, p) => stop (faultAt k a.1) (p, 0, 0)
            | .ok (v, c1) => readRun eng l gate n s1 { c1 with next := e + 1, got := c1.got ++ [(v, bad)] }

/-! ## Writing (R132, R135, R148) -/

/-- An element as the filter leaves it (CONV). -/
def convElem (c : Copy) (l : Lay) (x : Nat) : Nat :=
  if l.op = 1 then
    elemEnc l.df (rmOf (bits c.filt 14 12)) (bits c.filt 18 15) (elemVal l.sf (bits c.filt 18 15) x)
  else x

/-- The nibbles of a packet: a row's, from a place on; zero beyond them; what memory holds before them, where a row
begins inside the packet. -/
def packetBytes (old : List Byte) (j0 : Nat) (xs : List Nat) : List Byte :=
  let nib (j : Nat) : Nat :=
    if j < j0 then
      let b := (old.getD (j % 32) 0).toNat
      if 32 ≤ j then b / 16 else b % 16
    else xs.getD (j - j0) 0 % 16
  (range' 0 32).map (fun b => BitVec.ofNat 8 (nib b + 16 * nib (b + 32)))

/-- The value of an element of the destination, as read, and its poison. -/
def heldElem (c : Copy) (l : Lay) (e : Nat) : Nat × Bool := c.got.getD (srcOf l e - gotFrom l c.wnext) (0, false)

/-- What a unit writes: its bytes, each with its poison, and the place in its run of the element that overran a block. -/
def unitBytes (s : State) (eng : Nat) (c : Copy) (l : Lay) (e : Nat) : List (Byte × Bool) × Option Nat :=
  let xs := (range' e (unitLen c l e)).map (heldElem c l)
  let vals := xs.map (fun x => convElem c l x.1)
  let bad := xs.any (·.2)
  let of_ (bs : List Byte) : List (Byte × Bool) := bs.map (fun b => (b, bad))
  if l.op = 2 then
    let b := bmvBuild (xs.map (·.1)) (bits c.filt 63 48) l.df (bit c.filt 19) (unitSize c l)
    (of_ b.1, b.2)
  else if fourBit l.df then
    let old := match agtTargets s (engineAgt eng true c.id) (cpDsp c.packet) c.super .wr (unitAt c l e) 32 with
      | .ok ts => ts.flatMap (fun x => (homeRead s x.1.loc x.2).1)
      | .error _ => []
    (of_ (packetBytes old (packetAt l e % 64) vals), none)
  else (of_ (bytesOfNat (elemSize l.df) (vals.headD 0)), none)

/-- The units of a group of elements. -/
def groupUnits (c : Copy) (l : Lay) : Nat → Nat → Nat → List Nat
  | 0, _, _ => []
  | f + 1, e, n => if n = 0 then [] else e :: groupUnits c l f (e + unitLen c l e) (n - unitLen c l e)

/-- Runs of bytes of one poison, from a location on. -/
def badRuns (loc : Nat) : List (Byte × Bool) → List (Nat × List Byte × Bool)
  | [] => []
  | b :: r =>
    match badRuns (loc + 1) r with
    | (_, bs, p) :: t => if p = b.2 then (loc, b.1 :: bs, p) :: t else (loc, [b.1], b.2) :: (loc + 1, bs, p) :: t
    | [] => [(loc, [b.1], b.2)]

/-- The write requests of bytes with their targets, cut at aligned blocks; lo counts the bytes before them in the copy. -/
def requests (lo : Nat) : List (Xl × Nat) → List (Byte × Bool) → List CopyWr
  | [], _ => []
  | x :: r, bs =>
    let w : CopyWr := { lo := lo, hi := lo + x.2, runs := badRuns x.1.loc (bs.take x.2) }
    match requests (lo + x.2) r (bs.drop x.2) with
    | y :: t =>
      if (y.runs.headD (0, [], false)).1 / 128 = x.1.loc / 128 then { w with hi := y.hi, runs := w.runs ++ y.runs } :: t
      else w :: y :: t
    | [] => [w]

/-- The location at which a request begins, and the one after its last byte. -/
def CopyWr.first (w : CopyWr) : Nat := (w.runs.headD (0, [], false)).1
def CopyWr.past (w : CopyWr) : Nat := (w.runs.getLast?.map (fun r => r.1 + r.2.1.length)).getD 0

/-- Requests join those before them: the first goes on with one that ends within its word (R157). -/
def joinWr (old new : List CopyWr) : List CopyWr :=
  match old.getLast?, new with
  | some w, y :: t =>
    let shut : List CopyWr := old.dropLast ++ [{ w with opn := false }]
    if w.opn ∧ w.past = y.first then old.dropLast ++ { y with lo := w.lo, runs := w.runs ++ y.runs } :: t else shut ++ new
  | _, _ => old ++ new

/-- The last of some requests stays open where it ends within a word and an element that follows goes on from there. -/
def openWr (follows : Bool) (ws : List CopyWr) : List CopyWr :=
  match ws.getLast? with
  | some w => if follows ∧ w.past % 8 ≠ 0 then ws.dropLast ++ [{ w with opn := true }] else ws
  | none => ws

/-- The write AGT goes past n elements, whose write requests are issued. -/
def issueWr (s : State) (eng : Nat) (c : Copy) (l : Lay) (n : Nat) (ws : List CopyWr) (size : Nat) : Copy × State :=
  let e := c.wnext + n
  let last := (heldElem c l (e - 1)).1
  let follows := decide (e < l.total) && l.op != 2 && unitAt c l e == unitAt c l c.wnext + BitVec.ofNat 64 size
  let c1 := { c with wnext := e, wr := openWr follows (joinWr c.wr ws), bytes := c.bytes + size
                     got := c.got.drop (gotFrom l e - gotFrom l c.wnext)
                     prevW := if cpKind c.packet = 1 ∧ c.phase = .pos then c.p0 + last else c.prevW }
  (c1, agtTouch s (engineAgt eng true c.id) (cpDsp c.packet) (unitAt c l c.wnext) size)

/-- The write AGT issues the requests of the elements that have been read, each once its elements are whole, or, when the reads have
ended at a fault, with those that are; up to a fault or a wait; fuel counts the requests (R148). -/
def writeRun (eng : Nat) (l : Lay) (gate : Bool) (ended : Bool) : Nat → State → Copy → State × Copy × MoveEnd
  | 0, s, c => (s, c, .done)
  | f + 1, s, c =>
    let e := c.wnext
    let u := engineAgt eng true c.id
    let avail := if l.op = 3 then c.next / 64 * 64 else c.next
    let n0 := groupLen c l (if ended then avail else l.total) 127 e
    let size (n : Nat) : Nat := (groupUnits c l (n + 1) e n).length * unitSize c l
    -- where a unit of a request would fault, those before it go alone
    let n := match agtTargets s u (cpDsp c.packet) c.super .wr (unitAt c l e) (size n0) with
      | .ok _ => n0
      | .error _ => unitLen c l e
    if l.total ≤ e ∨ avail < e + n then (s, c, .done)
    else
      let a := unitAt c l e
      let us := (groupUnits c l (n + 1) e n).map (unitBytes s eng c l)
      let bs := us.flatMap (·.1)
      match agtWaits s u (cpDsp c.packet) a bs.length with
      | some s1 => (s1, c, .walk)
      | none =>
        match agtTargets s u (cpDsp c.packet) c.super .wr a bs.length with
        | .error x => (s, c, .fault { f := x, wside := true, at_ := e, pos := l.index e })
        | .ok xs =>
          if peerHeld s gate xs then (s, c, .peer)
          else
            let s0 := if cpDsp c.packet then s else agtAdvance s u a
            let r := issueWr s0 eng c l n (requests c.bytes xs bs) bs.length
            match us.findSome? (·.2) with
            | some i => (r.2, r.1, .fault { f := faultAt cBMV a, wside := true, at_ := e + i, pos := (e + i, 0, 0) })
            | none => writeRun eng l gate ended f r.2 r.1

/-! ## Faults (R148-R151) -/

/-- Whether every write of a copy has been made and acknowledged (R137). -/
def Copy.written (c : Copy) : Bool := c.issued && c.wr.isEmpty

/-- A copy faults: its record is written, or it keeps its place and waits for one; of a cancelled job it is abandoned at
once (R153, R397). -/
def copyFault (s : State) (eng : Nat) (c : Copy) (r : Rec) : State :=
  let die := eng / 16
  let s1 := updCopy (reqDone s [4096 + 2 * eng, 4097 + 2 * eng]) eng c.id (fun _ => { c with faulted := some none })
  let s2 := asyncRec s1 die r
  if (dispAt s die).cancelled then updCopy s2 eng c.id (fun c => { c with faulted := none, abandoned := true }) else s2

/-- A fault of a transfer. What was read ahead has no effect; both AGTs stand at the first element not written (R148, R150). While the
fault of a segment's update has its record, the copy waits there instead (R151). -/
def moveFault (s : State) (eng : Nat) (c : Copy) (x : SideFault) : State :=
  let l := layOf c
  let c1 := rewind c
  if c.faulted.isSome then updCopy s eng c.id (fun _ => c1)
  else copyFault s eng c1 (copyRec eng c1 { x.f with pos := some x.pos } x.wside false (l.index c1.next) (l.index c1.wnext))

/-- A copy whose phase has issued its last write goes on to the next phase, or has issued all of them. -/
def nextPhase (c : Copy) : Copy :=
  if c.wnext < (layOf c).total then c
  else if cpKind c.packet = 1 then
    match c.phase with
    | .pos => { c with phase := .crd, next := 0, wnext := 0, got := [] }
    | .crd => { c with phase := .val, next := 0, wnext := 0, got := [] }
    | .val => { c with issued := true }
  else { c with issued := true }

/-- One read request of a copy, and the write requests that its elements complete. -/
def moveOn (s : State) (eng : Nat) (c0 : Copy) : State :=
  let l := layOf c0
  let gate := bit (dev s 0x100900) 0 && !(match c0.point with
    | some n => decide (n ≤ s.host.pointsDone)
    | none => false)
  let c := { c0 with point := if gate then c0.point else none }
  let s1 := if cpSsp c.packet ∨ l.total ≤ c.next then s else agtAdvance s (engineAgt eng false c.id) (l.srcAt c.next).1
  let (s2, c2, re) := if c.next < l.total then readRun eng l gate (readLen c l 127 c.next) s1 c else (s1, c, .done)
  let (s3, c3, we) := writeRun eng l gate (match re with
    | .fault _ => true
    | _ => false) (c2.got.length + 1) s2 c2
  let wait : State := updCopy s3 eng c.id (fun _ => if gate then { c3 with point := some (c3.point.getD (s.host.points + 1)) } else c3)
  match we, re with
  | .fault x, _ => moveFault s3 eng c3 x
  | .peer, _ => wait
  | .walk, _ => updCopy s3 eng c.id (fun _ => c3)
  | .done, .fault x => moveFault s3 eng c3 x
  | .done, .peer => wait
  | .done, _ => updCopy s3 eng c.id (fun _ => nextPhase c3)

/-- The home of a write request: a bank's or a node's site, a stack, the host, a package. Writes to one home are made in order; to
several, in any order (R132). -/
def wrHome (w : CopyWr) : Nat :=
  let loc := w.first
  if loc < 2 ^ 32 then siteKey loc
  else if loc < hostBase then 2 ^ 20 + stackOf (loc - hbmBase)
  else if loc < peerBase then 2 ^ 21
  else 2 ^ 22 + (loc - peerBase) / 2 ^ 39

/-- One of a copy's writes on their way reaches its home, unless a full buffer or full links hold it, or the rest of a word that the
copy goes on to write. -/
def arriveWr (s : State) (eng : Nat) (c : Copy) (stuck : Bool) (n : Nat) : State :=
  match (c.wr[n % c.wr.length]?).bind (fun x => c.wr.find? (fun w => wrHome w == wrHome x)) with
  | none => s
  | some w => if (w.opn && !stuck) || wrHeld s w || (decide (2 ^ 22 ≤ wrHome w) && !injectRoom s 3) then s else performWr s eng c w

/-- COPY_TRANSFER (R132, R148): a read request and the writes that it completes, or the arrival of a write at its home; which of them
is a free value (DESIGN CHOICE, log 24). The writes of a copy that has faulted still arrive. -/
def copyTransfer (s0 : State) (eng id : Nat) : State :=
  match copyAt s0 eng id with
  | none => s0
  | some c =>
    let (k, s) := draw s0
    let n := Config.choose k
    let stuck := !c.started || c.issued || (c.faulted.isSome && !c.pend) || c.abandoned
    if !c.wr.isEmpty && (stuck || n % 2 == 0) then arriveWr s eng c stuck (n / 2)
    else if stuck then s0
    else moveOn s eng c

/-! ## Completion (R137-R147) -/

/-- The completion value. -/
def copyValue (c : Copy) : Nat := if cpKind c.packet = 1 then c.prev - c.p0 else pk c.packet 511 448

/-- A token for a fabric endpoint (R147, TKS = 0): a tile buffer's tag is set full, or a start token delivered. -/
def endpointToken (s : State) (t : Nat) : Except Nat State :=
  let site := siteKey t
  let kind := siteKind s (t / 2 ^ 30 % 4) (t / 2 ^ 18 % 4096)
  if kind = 0xA then
    match sPlace s t with
    | .node n => if t % 0x8000 % bufSize s site n = 0 then .ok (setTag s (tagKey s t) true) else .error cCFGBAD
    | _ => .error cCFGBAD
  else if fourCtx kind ∧ t % 2 ^ 16 = 0 then
    let k := 4 * site + t / 2 ^ 16 % 4
    if bit (fld s k 1) 0 && bit (fld s k 0xE) 3 then .ok (startToken s k) else .error cCFGBAD
  else .error cCFGBAD

/-- How a signal ends: sent, refused by a full ring, or with a fault. -/
inductive Sig where
  | sent (s : State) (c : Copy)
  | full
  | bad (cause : Nat) (addr : W64) (c : Copy) (s : State)

/-- A push onto a ring (R140): a slot is reserved and the record written; WP follows by RING_RECORD_ACK. -/
def ringPush (s : State) (a : Nat) (super : Bool) (record : List Byte) : Except FaultInfo (Option (W32 × State)) :=
  match ringAt s a with
  | none => .error (faultAt cCFGBAD (BitVec.ofNat 64 a))
  | some r =>
    if r.rsv - r.rp = BitVec.ofNat 32 (2 ^ r.lg) then .ok none
    else
      match checkObj s (BitVec.ofNat 64 (r.slot r.rsv)) 1 super with
      | .error f => .error f
      | .ok sl =>
        let s1 := homeWrite s (a + 8) (bytesOfNat 4 (r.rsv + 1).toNat)
        .ok (some (r.rsv, homeWrite s1 sl ((record ++ List.replicate 48 0).take r.size)))

/-- A completion record (Table 5-8). -/
def ringRecord (c : Copy) (status : Nat) : List Byte :=
  let (q, w) := c.queue.getD (0, 0)
  bytesOfNat 8 (copyValue c) ++ bytesOfNat 4 (min c.bytes 0xFFFFFFFF) ++ bytesOfNat 2 (q % 1024) ++ bytesOfNat 1 status ++
  bytesOfNat 1 (w % 256)

/-- The bytes of segment k of what a copy has issued (R144). -/
def segBytes (c : Copy) (k : Nat) : Nat := min 65536 (c.bytes - 65536 * k)

/-- The segments of what a copy has issued, and of what it still has to issue at least one; an empty copy has one, of 0 bytes. -/
def segCount (c : Copy) : Nat :=
  max 1 ((c.bytes + (if !c.issued && decide (c.wnext < (layOf c).total) then 1 else 0) + 65535) / 65536)

/-- Whether every write of a segment has been acknowledged (R144). -/
def segAcked (c : Copy) (k : Nat) : Bool :=
  (c.issued || decide (65536 * (k + 1) ≤ c.bytes)) &&
    !c.wr.any (fun w => decide (w.lo < 65536 * (k + 1)) && decide (65536 * k < w.hi))

/-- The segments not yet sent, in order. -/
def segsLeft (c : Copy) : List Nat := (range' 0 (segCount c)).filter (fun k => !c.segs.contains k)

/-- Sends the updates of segments, the last with the arrival of CARR. -/
def sendSegs (a : Nat) : State → Copy → List Nat → Sig
  | s, c, [] => .sent s c
  | s, c, k :: r =>
    let arr := if r.isEmpty ∧ cpCarr c.packet then 1 else 0
    match barUpdate s a arr (-(segBytes c k : Int)) with
    | .error e => .bad e (BitVec.ofNat 64 a) c s
    | .ok (_, s1) => sendSegs a s1 { c with segs := c.segs ++ [k] } r

/-- The check of a completion target in storage (R138), of which an RMW node reads some bytes. -/
def target (s : State) (c : Copy) (align size : Nat) : Except Nat Nat :=
  match checkObj s (BitVec.ofNat 64 (cpCtgt c.packet)) align c.super with
  | .error f => .error f.cause
  | .ok a => if poisoned s a size then .error cECC else .ok a

/-- The signal of a copy whose writes are all acknowledged. -/
def signal (s0 : State) (c : Copy) (status : Nat) : Sig :=
  let t := cpCtgt c.packet
  let no (e : Nat) : Sig := .bad e (BitVec.ofNat 64 t) c s0
  let s := if sPlace s0 t == .bank then portTurn s0 false t else s0
  match cpCkind c.packet with
  | 0 =>
    match target s c 32 32 with
    | .error e => no e
    | .ok a =>
      match ringPush s a c.super (ringRecord c status) with
      | .error f => .bad f.cause f.addr c s0
      | .ok none => .full
      | .ok (some (n, s1)) => .sent s1 { c with rsv := some (a, n) }
  | 1 =>
    match target s c 16 16 with
    | .error e => no e
    | .ok a => sendSegs a s c (segsLeft c)
  | 2 =>
    match target s c 8 8 with
    | .error e => no e
    | .ok a =>
      match futResolve s a (copyValue c) with
      | .error e => no e
      | .ok s1 => .sent s1 c
  | _ =>
    if cpTks c.packet then
      match target s c 64 0 with
      | .error e => no e
      | .ok a => .sent (fireRecord s a (BitVec.ofNat 64 (copyValue c))) c
    else
      match endpointToken s0 t with
      | .error e => no e
      | .ok s1 => .sent s1 c

/-- Whether the signal waits for its mirror point: a SYSTEM-scope release (R410). -/
def signalGate (s : State) (c : Copy) : Bool :=
  bit (dev s 0x100900) 0 && cpCsc c.packet == 4 && !(match c.point with
    | some n => decide (n ≤ s.host.pointsDone)
    | none => false)

/-- The completion step of a copy (R137, R151): signalled, retried after 64 cycles, or pending with a fault. -/
def completeNow (s : State) (eng : Nat) (c : Copy) (status : Nat) : State :=
  match signal s c status with
  | .sent s1 c1 => if c1.rsv.isSome then updCopy s1 eng c.id (fun _ => { c1 with retryAt := 0 }) else endCopy s1 eng c.id
  | .full => updCopy s eng c.id (fun _ => { c with retryAt := s.cycle + 64 })
  | .bad e a c1 s1 =>
    if status = 1 then endCopy s eng c.id
    else
      let i := (layOf c).index (layOf c).total
      copyFault s1 eng { c1 with pend := true } (copyRec eng c1 (faultAt e a) false true i i)

/-- COPY_COMPLETE. -/
def copyComplete (s : State) (eng id : Nat) : State :=
  match copyAt s eng id with
  | none => s
  | some c =>
    if c.faulted.isSome || c.rsv.isSome || c.retryAt != 0 || !c.wr.isEmpty then s
    else if c.abandoned then
      if cpCkind c.packet = 0 && !cpNosig c.packet then completeNow s eng c 1 else endCopy s eng id
    else if !c.written then s
    else if cpNosig c.packet then endCopy s eng id
    else if signalGate s c then
      (if c.point.isSome then s else updCopy s eng id (fun c => { c with point := some (s.host.points + 1) }))
    else completeNow s eng c 0

/-- RING_PUSH_RETRY. -/
def ringRetry (s : State) (eng id : Nat) : State :=
  match copyAt s eng id with
  | none => s
  | some c =>
    if c.retryAt = 0 ∨ s.cycle < c.retryAt ∨ c.faulted.isSome ∨ c.rsv.isSome then s
    else completeNow s eng { c with retryAt := 0 } (if c.abandoned then 1 else 0)

/-- RING_RECORD_ACK (R140): WP reaches a record whose write is acknowledged, in reservation order; its copy has
signalled. -/
def ringAck (s : State) (ring slot : Nat) : State :=
  let mine (c : Copy) : Bool := c.rsv == some (ring, BitVec.ofNat 32 slot)
  if !s.engines.any (fun g => g.2.copies.any mine) then s
  else if rdNat s (ring + 12) 4 ≠ slot % 2 ^ 32 then s
  else
    let s1 := homeWrite s (ring + 12) (bytesOfNat 4 (slot + 1))
    s.engines.foldl (fun s g => g.2.copies.foldl (fun s c => if mine c then endCopy s g.1 c.id else s) s) s1

/-- COPY_SEGMENT_COMPLETE (R144): the update of a segment whose writes are acknowledged, while another one is left to be sent last, of
a faulted copy too. An update that its barrier or its target refuses leaves the copy's completion pending, with its record (R151).
Where the copy already has the record of a fault of its transfer, R151 does not say what becomes of the refusal: no second record is
written, and the update is tried again (DESIGN CHOICE, log 24). -/
def segmentDone (s : State) (eng id seg : Nat) : State :=
  match copyAt s eng id with
  | none => s
  | some c =>
    let p := c.packet
    let left := segsLeft c
    if cpCkind p ≠ 1 || cpNosig p || (c.faulted.isSome && c.pend) || c.abandoned || !left.contains seg || decide (left.length < 2) ||
       !segAcked c seg then s
    else if signalGate s c then
      (if c.point.isSome then s else updCopy s eng id (fun c => { c with point := some (s.host.points + 1) }))
    else
      let bad (e : Nat) : State :=
        if c.faulted.isSome then s
        else
          let l := layOf c
          let c1 := { c with pend := true }
          copyFault s eng c1 (copyRec eng c1 (faultAt e (BitVec.ofNat 64 (cpCtgt p))) false true (l.index c.next) (l.index c.wnext))
      match target s c 16 16 with
      | .error e => bad e
      | .ok a =>
        match barUpdate (portTurn s false a) a 0 (-(segBytes c seg : Int)) with
        | .error e => bad e
        | .ok (_, s1) => updCopy s1 eng id (fun c => { c with segs := c.segs ++ [seg] })

/-! ## Cancellation (R153) -/

/-- The engines of a die take nothing more from their queues; their faulted copies are abandoned. -/
def cancelEngines (s : State) (die : Nat) : State :=
  (dieEngines die).foldl (fun s e =>
    if (look s.engines e).isNone then s
    else updEngine s e (fun g => { g with
      stopped := true
      copies := g.copies.map (fun c => if c.faulted.isSome then { c with faulted := none, abandoned := true } else c) })) s

/-! ## Submission for CPYQ (R123, R333) -/

/-- The engine that serves a queue, with the queue's header. -/
def servedBy (s : State) (q : Nat) : Option (Nat × W64) :=
  if !cqOn s then none
  else s.engines.findSome? (fun g => (g.2.queues.find? (fun x => x.1 = q)).map (fun x => (g.1, x.2.1)))

/-- How a submission stands: no such queue or a header that faults; no room in the claimed slot yet; submitted at w. -/
inductive SubmitRes where
  | bad (f : FaultInfo)
  | room
  | done (w : Nat) (s : State)

/-- The address that an engine has still to translate for a slot of one of its queues: the one that the next claim takes, or that of
an index. -/
def claimLacks (s : State) (q : Nat) (idx : Option Nat) : Option (Nat × W64) :=
  (servedBy s q).bind (fun x =>
    let u := queueAgt x.1
    let next : Nat := match queueXl s u x.2 8 with
      | .ok l => rdHome s l 8
      | .error _ => 0
    (queueLacks s u x.2 (some (idx.getD next))).map (fun va => (x.1, va)))

/-- The engine asks for its translation; and whether it has asked. -/
def claimAsk (s : State) (q : Nat) (idx : Option Nat) : Option State :=
  (claimLacks s q idx).map (fun x => agtAsk s (queueAgt x.1) x.2)
def claimAsked (s : State) (q : Nat) (idx : Option Nat) : Bool :=
  (claimLacks s q idx).any (fun x => agtAsked s (queueAgt x.1) x.2)

/-- The claim of a slot: WIDX before it. -/
def claimSlot (s : State) (q : Nat) : Except FaultInfo (Nat × State) :=
  match servedBy s q with
  | none => .error (faultAt cCFGBAD 0)
  | some (eng, hdr) =>
    match queueXl s (queueAgt eng) hdr 128 with
    | .error f => .error f
    | .ok l =>
      let lg := bits (rdHome s (l + 80) 1) 4 0
      if lg < 4 ∨ 16 < lg then .error (faultAt cCFGBAD hdr)
      else
        let w := rdHome s l 8
        .ok (w, homeWrite s l (bytesOfNat 8 (w + 1)))

/-- The packet goes to its claimed slot, once that has room. -/
def fillSlot (s : State) (q w : Nat) (p : BitVec 512) (super : Bool) (ident : Option Ident) : SubmitRes :=
  match servedBy s q with
  | none => .bad (faultAt cCFGBAD 0)
  | some (eng, hdr) =>
    match hdrLine s (queueAgt eng) hdr with
    | .error f => .bad f
    | .ok (_, h) =>
      match slotVa h w with
      | none => .bad (faultAt cCFGBAD hdr)
      | some va =>
      if 2 ^ bits h 132 128 ≤ wrapI 64 ((w : Int) - bits h 63 0) then .room
      else
        match queueXl s (queueAgt eng) va 64 with
        | .error f => .bad f
        | .ok sl =>
          let s1 := homeWrite s sl (1 :: (bytesOfNat 64 p.toNat).drop 1)
          .done w (signBy s1 sl { super := super, ident := ident })

end Sys2Proof.Machine
end

