-- ==== Sys2Proof/Machine/Units.lean ====
section
/-! DEFINITION. The firing of element contexts: what any unit shares, the stream units, ROW and JOIN (spec/04 R92-R102,
spec/12 R352-R371, R377). -/

namespace Sys2Proof.Machine
open Sys2Proof

/-! ## Firings -/

/-- How a firing ends early: the context cannot fire now; or it faults, at an input (R357). -/
inductive FStop where
  | no
  | fault (cause : Nat) (addr : W64) (pos : Option Nat) (inp : Nat)

/-- A firing of an element context. -/
abbrev Fire (α : Type) := EStateM FStop State α

/-- Reads and changes the state. -/
def fview {α : Type} (f : State → α) : Fire α := fun s => .ok (f s) s
def fupd (f : State → State) : Fire Unit := fun s => .ok () (f s)
/-- The context cannot fire now. -/
def cannot {α : Type} : Fire α := fun s => .error .no s
/-- A fault at an input's stream position. -/
def ffault {α : Type} (cause inp : Nat) : Fire α := fun s => .error (.fault cause 0 none inp) s
/-- A firing, or another where it cannot. -/
def orElse {α : Type} (x y : Fire α) : Fire α := fun s =>
  match x s with
  | .error .no _ => y s
  | r => r

/-- Fields of CTL (Table 12-3). -/
def ctl (s : State) (k : Nat) : Nat := fld s k 1
def idep (s : State) (k : Nat) : Nat := bits (ctl s k) 4 2 + 1
def elPol (s : State) (k : Nat) : Nat := bits (ctl s k) 8 5
def elRm (s : State) (k : Nat) : Rm := rmOf (bits (ctl s k) 11 9)
def mode0 (s : State) (k : Nat) : Bool := bit (fld s k 0x12) 0

/-- Bytes of a context's parameter block, as a number. -/
def blk (e : Elem) (lo n : Nat) : Nat := natOfBytes ((e.block.drop lo).take n)

/-! ## Ends of circuits (R376) -/

/-- The circuit ends of an IOP's block: circuit and whether it is the destination end. -/
def iopEnds (b : List Byte) : List (Nat × Bool) :=
  (range' 0 (natOfBytes (b.take 2))).map (fun e =>
    (natOfBytes ((b.drop (16 + 16 * e)).take 2), natOfBytes ((b.drop (18 + 16 * e)).take 1) == 1))

/-- An end of a circuit at an IOP: its entry's PKG, DIE, JIN, DSITE, DPORT. -/
structure IopEnd where
  pkg : Nat
  die : Nat
  jin : Nat
  dsite : Nat
  dport : Nat

/-- The entry of a circuit's end at a site. -/
def iopEnd (s : State) (site c : Nat) (dst : Bool) : Option IopEnd :=
  let b := (elemAt s (4 * site)).block
  ((iopEnds b).zip (range' 0 16)).findSome? (fun e =>
    if e.1 = (c, dst) then
      let g (lo n : Nat) : Nat := natOfBytes ((b.drop (16 + 16 * e.2 + lo)).take n)
      some { pkg := g 4 2, die := g 6 1, jin := g 7 1, dsite := g 8 2, dport := g 10 1 }
    else none)

/-- Where a destination end delivers. -/
def circuitDest (s : State) (site : Nat) (e : IopEnd) : Dest :=
  if e.jin < 4 then .elem (4 * site) e.jin else destAt s (2304 * (site / 2304) + e.dsite) e.dport

/-! ## What any unit shares -/

/-- A change of the context's own state. -/
def own (k : Nat) (f : Elem → Elem) : Fire Unit := fupd (fun s => updElem s k f)
def setRun (k : Nat) (r : Run) : Fire Unit := own k (fun e => { e with run := r })

/-- Whether a tag is one that a unit may pass on: no unit emits a reserved one (R95). -/
def tagOk (t : BitVec 4) : Bool := isData t || isStop t || t == tDONE

/-- The head token of an input, checked by R98 against a depth, its tag, and its data of a kind (R95, R97). -/
def need (k i depth : Nat) (kind : BitVec 4) : Fire Token := do
  let h ← fview (fun s => headAt s k i)
  match h with
  | none => cannot
  | some t =>
    let last ← fview (fun s => look (elemAt s k).last i)
    if !streamOk depth last t.tag || !tagOk t.tag then ffault cCFGBAD i
    else if isData t.tag && t.tag != kind then ffault cCFGBAD i
    else pure t

/-- As need, for data of either kind REF or VAL. -/
def needData (k i depth : Nat) : Fire Token := do
  let h ← fview (fun s => headAt s k i)
  match h with
  | none => cannot
  | some t =>
    let last ← fview (fun s => look (elemAt s k).last i)
    if !streamOk depth last t.tag || !tagOk t.tag || t.tag = tCOORD then ffault cCFGBAD i else pure t

/-- Takes the head token. -/
def takeTok (k i : Nat) : Fire Unit := fupd (fun s => takeAt s k i)

/-- A token on its way out of an output, by its route's filter (R115). -/
def filtered (s : State) (k out : Nat) (t : Token) : Token :=
  let a := fld s k (6 + out)
  mordToken (mordant s (k / 4) (bits a 0 0) (bits a 4 1)) t

/-- Delivers an element's emissions in order, while there is room; stops in flight are counted (R100). -/
def flushOut (k : Nat) : Nat → State → State
  | 0, s => s
  | n + 1, s =>
    match (elemAt s k).outq with
    | [] => s
    | (o, t) :: r =>
      let ds := outDests s k o
      if !hasRoom s ds then s
      else
        let s1 := updElem s k (fun e => { e with
          outq := r, stops := if isStop t.tag && !ds.isEmpty then put e.stops o (getD e.stops 0 o + 1) else e.stops })
        flushOut k n (deliver s1 ds (filtered s k o t))

/-- Emits tokens, each with its output: every output that the step uses must have room (R354). -/
def emit (k : Nat) (ts : List (Nat × Token)) : Fire Unit := do
  let ok ← fview (fun s => ts.all (fun t => hasRoom s (outDests s k t.1)))
  if ok then fupd (fun s => flushOut k 16 (updElem s k (fun e => { e with outq := e.outq ++ ts }))) else cannot

/-- Whether the producer of a channel sends W2 containers: an element's OATTR, or an endpoint's KIND. -/
def sendsW2 (s : State) (d : Dest) : Bool :=
  (match producerOf s d with
   | some (j, o) => bit (fld s j (6 + o)) 7
   | none => false) ||
  s.fab.endps.any (fun e => (endpDests s e.1).contains d && bits e.2.cfg 3 2 == 3 && bit e.2.cfg 0)

/-- The circuit whose destination end delivers at an input. -/
def circuitTo (s : State) (d : Dest) : Option Nat :=
  s.fab.circuits.findSome? (fun c => match c.2.dst.bind (fun site => (iopEnd s site c.1 true).map (circuitDest s site)) with
    | some x => if x = d then some c.1 else none
    | none => none)

/-- Whether an input carries W2 containers: its producer's channel does, or that of the circuit that delivers to it (R96, R376). -/
def isW2 (s : State) (k i : Nat) : Bool :=
  sendsW2 s (.elem k i) || (match circuitTo s (.elem k i) with
    | some c => sendsW2 s (.circ c)
    | none => false)

/-! ## Drop-empty (R99) -/

/-- Stops, data and DONE of a unit's aligned outputs, through its pending-stop register where DROPE is set. -/
def onAll (outs : List Nat) (t : Token) : List (Nat × Token) := outs.map (fun o => (o, t))

def emitStop (k : Nat) (outs : List Nat) (lvl : Nat) : Fire Unit := do
  let drope ← fview (fun s => bit (ctl s k) 1)
  if !drope then emit k (onAll outs (tokStop lvl))
  else
    own k (fun e => { e with pend := match e.pend with
      | some p => some (max p lvl)
      | none => if e.emit then some lvl else none })

def emitData (k : Nat) (ts : List (Nat × Token)) : Fire Unit := do
  let drope ← fview (fun s => bit (ctl s k) 1)
  let p ← fview (fun s => (elemAt s k).pend)
  match drope, p with
  | true, some l =>
    emit k (onAll (ts.map (·.1)) (tokStop l) ++ ts)
    own k (fun e => { e with pend := none, emit := true })
  | _, _ =>
    emit k ts
    own k (fun e => { e with emit := true })

def emitDone (k : Nat) (outs : List Nat) (depth : Nat) : Fire Unit := do
  let drope ← fview (fun s => bit (ctl s k) 1)
  let e ← fview (fun s => elemAt s k)
  let last := if !drope then [] else match e.pend with
    | some l => onAll outs (tokStop l)
    | none => if e.emit then [] else onAll outs (tokStop (depth - 1))
  emit k (last ++ onAll outs tokDone)
  own k (fun e => { e with pend := none, emit := false })

/-! ## Array accesses at port F (R41, R359) -/

/-- Whether an element context belongs to a graph configured in S mode. -/
def elemSuper (s : State) (k : Nat) : Bool :=
  match graphAt s (k / 4) with
  | some (_, g) => g.super
  | none => false

/-- The checks of n bytes at an S-address in banks. -/
def portCheck (s : State) (k a n : Nat) : Option Nat :=
  if 2 ^ 32 < a + n ∨ sPlace s a ≠ .bank ∨ sPlace s (a + n - 1) ≠ .bank then some cADDR
  else if !elemSuper s k && ((srgn s a).2 || (srgn s (a + n - 1)).2) then some cPROT
  else none

/-- Reads n bytes at a bank's port F. -/
def portRead (k a n inp : Nat) : Fire Nat := do
  let bad ← fview (fun s => portCheck s k a n)
  match bad with
  | some c => fun s => .error (.fault c (BitVec.ofNat 64 a) none inp) s
  | none =>
    fupd (fun s => portTurn s true a)
    let p ← fview (fun s => poisoned s a n)
    if p then (fun s => .error (.fault cECC (BitVec.ofNat 64 a) none inp) s)
    else (fun s => let r := homeRead s a n; .ok (natOfBytes r.1) r.2)

/-- Writes bytes at a bank's port F: word tags are set full (R47), the bytes counted for the period (R355). -/
def portWrite (k a : Nat) (bs : List Byte) (inp : Nat) : Fire Unit := do
  let bad ← fview (fun s => portCheck s k a bs.length)
  match bad with
  | some c => fun s => .error (.fault c (BitVec.ofNat 64 a) none inp) s
  | none =>
    fupd (fun s => unitWrite s true ((elemAgt k).author s) a bs false)
    own k (fun e => { e with bytes := e.bytes + bs.length })

/-- The end of a stream that a context has emitted or consumed (R354): it begins again, after a start token with REARM. -/
def streamEnd (k : Nat) : Fire Unit := do
  let rearm ← fview (fun s => bit (fld s k 0xE) 1)
  own k (fun e =>
    let e1 := { e with run := match e.run with
      | .memop l _ p m _ w _ => .memop (p.getD l) 0 none m false w (!rearm)
      | _ => .idle }
    if !rearm then { e1 with done := true }
    else if e1.held then { e1 with held := false, done := false } else { e1 with waiting := true, done := true })

/-! ## Scanner (R358, R359) -/

def scnOf (r : Run) : Bool × Option Fib × Bool :=
  match r with
  | .scn a b c => (a, b, c)
  | _ => (false, none, false)

/-- Opens fibre r: none where it is empty. Of a compressed fibre both pos entries are read and checked (R94, R359). -/
def scnOpen (k r : Nat) : Fire (Option Fib) := do
  let e ← fview (fun s => elemAt s k)
  let n := blk e 0 4
  let pos := blk e 4 4
  if r = 0xFFFFFFFF then pure none
  else
    match bits (blk e 16 1) 1 0 with
    | 0 => pure (if n = 0 then none else some { ref := r, p := 0, e := n, rank := 0 })
    | 1 =>
      let p0 ← portRead k (pos + 4 * r) 4 0
      let p1 ← portRead k (pos + 4 * r + 4) 4 0
      if p1 < p0 then ffault cCFGBAD 0
      else pure (if p0 = p1 then none else some { ref := r, p := p0, e := p1, rank := 0 })
    | _ =>
      let p0 ← portRead k (pos + 4 * r) 4 0
      pure (if n = 0 then none else some { ref := r, p := 0, e := n, rank := p0 })

/-- Mask word w of fibre r. -/
def maskWord (k r w : Nat) : Fire Nat := do
  let e ← fview (fun s => elemAt s k)
  portRead k (blk e 8 4 + 8 * (r * ((blk e 0 4 + 63) / 64) + w)) 8 0

/-- The first set bit of a word from a bit on. -/
def firstBit (w : Nat) : Nat → Nat → Option Nat
  | 0, _ => none
  | f + 1, b => if bit w b then some b else firstBit w f (b + 1)

/-- The next coordinate of a bitmap fibre from p on; fuel counts the words. -/
def nextBit (k r e : Nat) : Nat → Nat → Fire (Option Nat)
  | 0, _ => pure none
  | f + 1, p => do
    if e ≤ p then pure none
    else
      let w ← maskWord k r (p / 64)
      match firstBit w (64 - p % 64) (p % 64) with
      | some b => pure (if p / 64 * 64 + b < e then some (p / 64 * 64 + b) else none)
      | none => nextBit k r e f (p / 64 * 64 + 64)

/-- The next element of a fibre: coordinate, child reference, and the fibre after it; none at its end. -/
def scnNext (k : Nat) (f : Fib) : Fire (Option (Nat × Nat × Option Fib)) := do
  let e ← fview (fun s => elemAt s k)
  let rest (g : Fib) : Option Fib := if g.p < g.e then some g else none
  match bits (blk e 16 1) 1 0 with
  | 0 =>
    if f.p < f.e then pure (some (f.p, f.ref * blk e 0 4 + f.p, rest { f with p := f.p + 1 })) else pure none
  | 1 =>
    if f.p < f.e then do
      let c ← portRead k (blk e 8 4 + 4 * f.p) 4 0
      pure (some (c, f.p, rest { f with p := f.p + 1 }))
    else pure none
  | _ => do
    let b ← nextBit k f.ref f.e (f.e / 64 + 1) f.p
    match b with
    | none => pure none
    | some c => pure (some (c, f.rank, rest { f with p := c + 1, rank := f.rank + 1 }))

def scnStep (k : Nat) : Fire Unit := do
  let e ← fview (fun s => elemAt s k)
  let (op, fib, rootDone) := scnOf e.run
  let d ← fview (fun s => idep s k)
  let root := bit (blk e 16 1) 2
  match fib with
  | some f =>
    let r ← scnNext k f
    match r with
    | some (c, ref, g) =>
      emitData k [(0, tokCoord c), (1, tokRef ref)]
      setRun k (.scn op g rootDone)
    | none => setRun k (.scn op none rootDone)
  | none =>
    if root then
      if rootDone then cannot
      else if !op then
        let f ← scnOpen k (blk e 12 4)
        setRun k (.scn true f false)
      else
        emitStop k [0, 1] 0
        emitDone k [0, 1] 1
        streamEnd k
        let w ← fview (fun s => bit (fld s k 0xE) 1)
        if w then pure () else setRun k (.scn false none true)
    else
      let t ← need k 0 d tREF
      if t.tag = tREF then
        if op then emitStop k [0, 1] 0 else pure ()
        let f ← scnOpen k t.data.toNat
        takeTok k 0
        setRun k (.scn true f false)
      else if t.tag = tDONE then
        emitDone k [0, 1] (d + 1)
        takeTok k 0
        streamEnd k
      else
        emitStop k [0, 1] (stopLevel t.tag + 1)
        takeTok k 0
        setRun k (.scn false none false)

/-! ## Galloping and SKIP (R100-R102, R368) -/

/-- The doubling steps of the search. -/
def gallopUp (k crd p e c : Nat) : Nat → Nat → Fire Nat
  | 0, st => pure st
  | f + 1, st => do
    if e ≤ p + st then pure st
    else
      let v ← portRead k (crd + 4 * (p + st)) 4 0
      if v < c then gallopUp k crd p e c f (st * 2) else pure st

/-- The halving steps. -/
def gallopIn (k crd c : Nat) : Nat → Nat → Nat → Fire Nat
  | 0, _, hi => pure hi
  | f + 1, lo, hi => do
    if hi ≤ lo + 1 then pure hi
    else
      let mid := (lo + hi) / 2
      let v ← portRead k (crd + 4 * mid) 4 0
      if v < c then gallopIn k crd c f mid hi else gallopIn k crd c f lo mid

/-- gallop(c) over a compressed fibre. -/
def gallop (k crd c : Nat) (f : Fib) : Fire Fib := do
  if f.e ≤ f.p then pure f
  else
    let v ← portRead k (crd + 4 * f.p) 4 0
    if c ≤ v then pure f
    else
      let st ← gallopUp k crd f.p f.e c 33 1
      let p ← gallopIn k crd c 33 (f.p + st / 2) (min (f.p + st) f.e)
      pure { f with p := p }

/-- The set mask bits of a bitmap fibre from p up to c; fuel counts them. -/
def rankTo (k r c : Nat) : Nat → Nat → Nat → Fire Nat
  | 0, _, n => pure n
  | f + 1, p, n => do
    let b ← nextBit k r c (c / 64 + 1) p
    match b with
    | none => pure n
    | some x => rankTo k r c f (x + 1) (n + 1)

/-- SKIP(c) at a scanner with SKIPE. -/
def scnSkip (k c : Nat) : Fire Unit := do
  let e ← fview (fun s => elemAt s k)
  let (op, fib, rd) := scnOf e.run
  match fib with
  | none => pure ()
  | some f =>
    let g ← (match bits (blk e 16 1) 1 0 with
      | 0 => pure { f with p := min (max f.p c) f.e }
      | 1 => gallop k (blk e 8 4) c f
      | _ => do
        let c' := min (max f.p c) f.e
        let r ← rankTo k f.ref c' (c' + 1) f.p f.rank
        pure { f with p := c', rank := r })
    setRun k (.scn op (if g.p < g.e then some g else none) rd)

def twoOf (r : Run) : Bool × Option W32 × Option W32 :=
  match r with
  | .two a b c => (a, b, c)
  | _ => (false, none, none)

/-- The greater of a threshold and a coordinate. -/
def raise (t : Option W32) (c : W32) : Option W32 :=
  match t with
  | some x => some (if x.ult c then c else x)
  | none => some c

/-- SKIP_RECEIVED: the SKIP in the slot of an output. One that comes while a stop is under way is discarded. R100 counts the stops
emitted: whether one that drop-empty holds pending counts, it does not say, and here it does not (DESIGN CHOICE, log 55). -/
def skipStep (k : Nat) : Fire Unit := do
  let e ← fview (fun s => elemAt s k)
  match e.skip with
  | [] => cannot
  | (o, c) :: r =>
    own k (fun e => { e with skip := r })
    if o ≠ 0 ∨ getD e.stops 0 o ≠ 0 then pure ()
    else
      let kind ← fview (fun s => kindAt s (k / 4))
      let m ← fview (fun s => mode0 s k)
      if kind = 1 then (if m then scnSkip k c.toNat else pure ())
      else if kind = 2 ∨ kind = 3 then
        fupd (fun s => sendSkip (sendSkip s (.elem k 0) c) (.elem k 2) c)
        own k (fun e =>
          let (st, ta, tb) := twoOf e.run
          { e with run := .two st (raise ta c) (raise tb c) })
      else pure ()

/-! ## Intersecter and unioner (R360, R361) -/

/-- An aligned pair of heads: a coordinate or value and what goes with it; the same stop on both, or a fault. -/
def needPair (k i j depth : Nat) (ki kj : BitVec 4) : Fire (Token × Token) := do
  let a ← need k i depth ki
  let b ← need k j depth kj
  if (isData a.tag && isData b.tag) || a.tag = b.tag then pure (a, b) else ffault cCFGBAD i

/-- The head pair of a side, where it has come. -/
def sideHead (k i depth : Nat) : Fire (Option (Token × Token)) := do
  let h ← fview (fun s => (headAt s k i).isSome && (headAt s k (i + 1)).isSome)
  if h then do let p ← needPair k i (i + 1) depth tCOORD tREF; pure (some p) else pure none

/-- Pops the pair of a side. -/
def popSide (k i : Nat) : Fire Unit := do takeTok k i; takeTok k (i + 1)

/-- Whether a data head lies below its side's threshold (R101). -/
def below (t : Option W32) (p : Option (Token × Token)) : Bool :=
  match t, p with
  | some c, some (a, _) => a.tag == tCOORD && a.data.ult c
  | _, _ => false

def twoStep (k : Nat) (union : Bool) : Fire Unit := do
  let e ← fview (fun s => elemAt s k)
  let (sent, ta, tb) := twoOf e.run
  let d ← fview (fun s => idep s k)
  let skipe ← fview (fun s => mode0 s k && !union)
  let a ← sideHead k 0 d
  let b ← sideHead k 2 d
  let none1 : Token := tokRef 0xFFFFFFFF
  -- a side that has been sent SKIP(c) gives up what comes below c until the next stop (R101)
  let ask (i : Nat) (c : W32) : Fire Unit :=
    if skipe then do
      fupd (fun s => sendSkip s (.elem k i) c)
      setRun k (if i = 0 then .two sent (raise ta c) tb else .two sent ta (raise tb c))
    else pure ()
  let lift (i : Nat) (once : Bool) : Fire Unit :=
    if once then pure ()
    else do
      ask i 0xFFFFFFFF
      own k (fun e => { e with run := let (_, x, y) := twoOf e.run; .two true x y })
  if below ta a then popSide k 0
  else if below tb b then popSide k 2
  else
    match a, b with
    | some (ca, ra), some (cb, rb) =>
      if isData ca.tag && isData cb.tag then
        if ca.data = cb.data then
          emitData k [(0, ca), (1, ra), (2, rb)]
          popSide k 0
          popSide k 2
        else if ca.data.ult cb.data then
          if union then emitData k [(0, ca), (1, ra), (2, none1)] else ask 0 cb.data
          popSide k 0
        else
          if union then emitData k [(0, cb), (1, none1), (2, rb)] else ask 2 ca.data
          popSide k 2
      else if isData ca.tag then
        if cb.tag = tDONE then ffault cCFGBAD 2
        else
          if union then emitData k [(0, ca), (1, ra), (2, none1)] else lift 0 sent
          popSide k 0
      else if isData cb.tag then
        if ca.tag = tDONE then ffault cCFGBAD 0
        else
          if union then emitData k [(0, cb), (1, none1), (2, rb)] else lift 2 sent
          popSide k 2
      else if ca.tag ≠ cb.tag then ffault cCFGBAD 0
      else if ca.tag = tDONE then
        emitDone k [0, 1, 2] d
        popSide k 0
        popSide k 2
        streamEnd k
      else
        emitStop k [0, 1, 2] (stopLevel ca.tag)
        popSide k 0
        popSide k 2
        setRun k (.two false none none)
    | _, _ => cannot

/-! ## Repeater (R362) -/

def rptOf (r : Run) : Option Token × List Token × Bool × Nat × Nat × Bool :=
  match r with
  | .rpt a b c d e f => (a, b, c, d, e, f)
  | _ => (none, [], false, 0, 0, false)

def rptCoord (k : Nat) : Fire Unit := do
  let (cur, _, _, _, _, _) ← fview (fun s => rptOf (elemAt s k).run)
  let d ← fview (fun s => idep s k)
  let t ← need k 1 (d + 1) tCOORD
  let setCur (c : Option Token) : Fire Unit := setRun k (.rpt c [] false 0 0 false)
  if t.tag = tDONE then
    let u ← needData k 0 d
    if u.tag ≠ tDONE then ffault cCFGBAD 0
    else
      emit k [(0, tokDone)]
      takeTok k 0
      takeTok k 1
      streamEnd k
  else
    match cur with
    | some c =>
      if isData t.tag then
        emit k [(0, c)]
        takeTok k 1
      else if t.tag = tStop 0 then
        emit k [(0, tokStop 0)]
        takeTok k 1
        setCur none
      else
        let u ← needData k 0 d
        if u.tag ≠ tStop (stopLevel t.tag - 1) then ffault cCFGBAD 0
        else
          emit k [(0, { t with data := 0 })]
          takeTok k 0
          takeTok k 1
          setCur none
    | none =>
      let u ← needData k 0 d
      if isData u.tag then
        takeTok k 0
        setCur (some u)
      else if isStop t.tag && isStop u.tag && stopLevel t.tag = stopLevel u.tag + 1 then
        emit k [(0, { t with data := 0 })]
        takeTok k 0
        takeTok k 1
      else ffault cCFGBAD 0

/-- One token of a replay: its closing stop is held pending, and the one pending before it goes out first. -/
def rptReplay (k d : Nat) : Fire Unit := do
  let (_, buf, whole, left, at_, pend) ← fview (fun s => rptOf (elemAt s k).run)
  if left = 0 then cannot
  else
    match buf[at_]? with
    | none => cannot
    | some t =>
      if t.tag = tStop (d - 1) then
        emit k (if pend then [(0, tokStop (d - 1))] else [])
        setRun k (.rpt none buf whole (left - 1) 0 true)
      else
        emit k ((if pend then [(0, tokStop (d - 1))] else []) ++ [(0, t)])
        setRun k (.rpt none buf whole left (at_ + 1) false)

/-- One token of I0 into the buffer. -/
def rptFill (k d : Nat) : Fire Unit := do
  let (_, buf, whole, left, at_, pend) ← fview (fun s => rptOf (elemAt s k).run)
  if whole then cannot
  else
    let h ← fview (fun s => (headAt s k 0).map (·.tag))
    let t ← need k 0 d (h.getD 0)
    takeTok k 0
    if t.tag = tDONE then setRun k (.rpt none buf true left at_ pend)
    else if 1024 ≤ buf.length then ffault cCFGBAD 0
    else setRun k (.rpt none (buf ++ [t]) false left at_ pend)

/-- One count. -/
def rptCount (k d : Nat) : Fire Unit := do
  let (_, buf, whole, left, _, pend) ← fview (fun s => rptOf (elemAt s k).run)
  if left ≠ 0 then cannot
  else
    let t ← need k 1 1 tCOORD
    if t.tag = tCOORD then
      takeTok k 1
      setRun k (.rpt none buf whole t.data.toNat 0 pend)
    else if isStop t.tag then takeTok k 1
    else if !whole then cannot
    else
      emit k [(0, tokStop d), (0, tokDone)]
      takeTok k 1
      streamEnd k

def rptStep (k : Nat) : Fire Unit := do
  let m ← fview (fun s => mode0 s k)
  let d ← fview (fun s => idep s k)
  if m then orElse (rptReplay k d) (orElse (rptFill k d) (rptCount k d)) else rptCoord k

/-! ## Values in containers (R96) -/

/-- Formats of integers. -/
def intFmt (f : Nat) : Bool := f == 7 || f == 0xC

/-- The signed value of an integer container. -/
def intOf (f x : Nat) : Int := if f = 7 then sgn 8 x else sgn 32 x

/-- An element widened exactly to FP32 (R363, R370). -/
def toFp32 (f pol x : Nat) : Nat := convert (elemVal f pol x) fp32 .rne (pol - pol % 4)

/-! ## Reducer, value reader, combiner (R363-R365) -/

def redStep (k : Nat) : Fire Unit := do
  let e ← fview (fun s => elemAt s k)
  let d ← fview (fun s => idep s k)
  let pol ← fview (fun s => elPol s k)
  let rm ← fview (fun s => elRm s k)
  let init := BitVec.ofNat 32 (blk e 0 4)
  let op := bits (blk e 4 1) 1 0
  let empt := bit (blk e 4 1) 2
  let ifmt := bits (blk e 5 1) 3 0
  let ofmt := bits (blk e 5 1) 7 4
  let (acc, any) := match e.run with
    | .red a b => (a, b)
    | _ => (init, false)
  let w2 ← fview (fun s => isW2 s k 0)
  let t ← need k 0 d tVAL
  let out : Token := tokVal (elemEnc ofmt rm pol (if intFmt ifmt then .ofInt acc.toInt else decodeFp fp32 acc.toNat))
  let val : List (Nat × Token) := if any || !empt then [(0, out)] else []
  if t.tag = tVAL then
    if w2 then ffault cCFGBAD 0
    else
      let x := t.data.toNat
      let a := acc.toNat
      let r : Nat :=
        if intFmt ifmt then
          let xi := intOf ifmt x
          let ai := acc.toInt
          wrapI 32 (if op = 0 then ai + xi else if op = 1 then max ai xi else min ai xi)
        else if op = 0 then
          let y := elemVal ifmt pol x
          let z := decodeFp fp32 a
          convert (orNan [z, y] (fvSum rm [z, y])) fp32 rm pol
        else fpMinMax (op == 1) pol a (toFp32 ifmt pol x)
      takeTok k 0
      setRun k (.red (BitVec.ofNat 32 r) true)
  else if t.tag = tDONE then
    emit k [(0, tokDone)]
    takeTok k 0
    streamEnd k
  else
    let l := stopLevel t.tag
    let tail : List (Nat × Token) := if 0 < l then [(0, tokStop (l - 1))] else if d = 1 then [(0, tokStop 0)] else []
    emit k (val ++ tail)
    takeTok k 0
    setRun k (.red init false)

def vrdStep (k : Nat) : Fire Unit := do
  let e ← fview (fun s => elemAt s k)
  let d ← fview (fun s => idep s k)
  let t ← need k 0 d tREF
  let size := elemSize (bits (blk e 8 1) 3 0)
  if t.tag = tREF then
    if t.data = 0xFFFFFFFF#32 then emit k [(0, tokVal (blk e 4 4 % 2 ^ (8 * size)))]
    else
      let v ← portRead k (blk e 0 4 + t.data.toNat * size) size 0
      emit k [(0, tokVal v)]
  else emit k [(0, { t with data := 0 })]
  takeTok k 0
  if t.tag = tDONE then streamEnd k else pure ()

/-- One value of a combiner: konst says that b is CONST. -/
def cmbOne (op ifmt ofmt : Nat) (konst : Bool) (rm : Rm) (pol a b : Nat) : Nat :=
  if intFmt ifmt then
    let x := intOf ifmt a
    let y := if konst then sgn 32 b else intOf ifmt b
    let r : Int := match op with
      | 0 => x + y
      | 1 => x - y
      | 2 => x * y
      | 3 => min x y
      | 4 => max x y
      | 5 => x
      | _ => y
    if ofmt = 0xC then wrapI 32 r else elemEnc ofmt rm pol (.ofInt r)
  else
    let x := elemVal ifmt pol a
    let y := if konst then flush fp32 pol b else elemVal ifmt pol b
    let lesser (greater : Bool) : Fv :=
      match firstNan [x, y] with
      | some n => n
      | none =>
        let c := fvCmp x y
        let lt := c < 0 || (c = 0 && x.neg? && !y.neg?)
        if lt != greater then x else y
    let r : Fv := match op with
      | 0 => orNan [x, y] (fvSum rm [x, y])
      | 1 => orNan [x, y] (fvSum rm [x, y.negate])
      | 2 => orNan [x, y] (fvMul x y)
      | 3 => lesser false
      | 4 => lesser true
      | 5 => x
      | _ => y
    elemEnc ofmt rm pol r

def cmbStep (k : Nat) : Fire Unit := do
  let e ← fview (fun s => elemAt s k)
  let d ← fview (fun s => idep s k)
  let pol ← fview (fun s => elPol s k)
  let rm ← fview (fun s => elRm s k)
  let op := bits (blk e 4 1) 3 0
  let konst := bit (blk e 4 1) 4
  let ifmt := bits (blk e 5 1) 3 0
  let ofmt := bits (blk e 5 1) 7 4
  let (a, b) ← (if konst then do
      let a ← need k 0 d tVAL
      pure (a, a)
    else needPair k 0 1 d tVAL tVAL)
  let w2 ← fview (fun s => isW2 s k 0)
  let c := blk e 0 4
  if a.tag = tVAL then
    let y (v : Nat) : Nat := if konst then c else v
    if !w2 then emit k [(0, tokVal (cmbOne op ifmt ofmt konst rm pol a.data.toNat (y b.data.toNat)))]
    else if elemSize ifmt = 4 || elemSize ofmt = 4 then ffault cCFGBAD 0
    else
      let wi := 8 * elemSize ifmt
      let wo := 8 * elemSize ofmt
      let half (h : Nat) : Nat :=
        cmbOne op ifmt ofmt konst rm pol (a.data.toNat / 2 ^ (wi * h) % 2 ^ wi) (y (b.data.toNat / 2 ^ (wi * h) % 2 ^ wi))
      emit k [(0, tokVal (half 0 + 2 ^ wo * half 1))]
  else emit k [(0, { a with data := 0 })]
  takeTok k 0
  if konst then pure () else takeTok k 1
  if a.tag = tDONE then streamEnd k else pure ()

/-! ## Level writer (R366, R367) -/

/-- The end of a period: it is to be signalled (R355). -/
def periodEnd (k : Nat) : Fire Unit := own k (fun e => { e with ended := true })

/-- Zeroes the mask of fibre f. -/
def zeroMask (k : Nat) (e : Elem) (f : Nat) : Fire Unit := do
  let n := (blk e 12 4 + 63) / 64
  (range' 0 n).forM (fun w => portWrite k (blk e 4 4 + 8 * (f * n + w)) (bytesOfNat 8 0) 0)

/-- Closes block f of mode 4: a block that overruns is written and faults, with the index in the block (R105). -/
def lwrClose (k : Nat) (e : Elem) (f : Nat) (vals : List W32) : Fire Unit := do
  let bn := blk e 12 4
  let cap := blk e 16 2
  let fmt := bits (blk e 19 1) 3 0
  let size := bmvSize bn cap fmt
  if vals.isEmpty then ffault cCFGBAD 1
  else
    let xs := vals.map (fun v => v.toNat % 2 ^ (8 * elemSize fmt))
    let (bs, past) := bmvBuild xs cap fmt (bit (blk e 18 1) 3) size
    let a := blk e 8 4 + f * size
    portWrite k a bs 1
    match past with
    | none => pure ()
    | some i => fun s => .error (.fault cBMV (BitVec.ofNat 64 a) (some i) 1) s

def lwrStep (k : Nat) : Fire Unit := do
  let e ← fview (fun s => elemAt s k)
  let d ← fview (fun s => idep s k)
  let mode := bits (blk e 18 1) 2 0
  let n := blk e 12 4
  let fmt := bits (blk e 19 1) 3 0
  let size := elemSize fmt
  let vals := blk e 8 4
  let hasV : Bool := decide (2 ≤ mode) || vals != 0xFFFFFFFF
  let hasC : Bool := decide (mode ≤ 2)
  let (p, f, begun, vs) := match e.run with
    | .lwr a b c l => (a, b, c, l)
    | _ => (0, 0, false, [])
  let (c, v) ← (if hasC && hasV then needPair k 0 1 d tCOORD tVAL
    else if hasC then do let c ← need k 0 d tCOORD; pure (c, c)
    else do let v ← need k 1 d tVAL; pure (v, v))
  if begun then pure ()
  else
    if mode ≤ 1 then portWrite k (blk e 0 4) (bytesOfNat 4 0) 0 else pure ()
    if mode = 1 then zeroMask k e 0 else pure ()
  let pop : Fire Unit := do
    if hasC then takeTok k 0 else pure ()
    if hasV then takeTok k 1 else pure ()
  if isData c.tag then
    let x := v.data.toNat % 2 ^ (8 * size)
    if (mode = 1 ∨ mode = 2) ∧ n ≤ c.data.toNat then ffault cCFGBAD 0
    else if mode = 4 ∧ n ≤ vs.length then ffault cCFGBAD 1
    else
      if mode = 0 then portWrite k (blk e 4 4 + 4 * p) (bytesOfNat 4 c.data.toNat) 0
      else if mode = 1 then
        let cc := c.data.toNat
        let a := blk e 4 4 + 8 * (f * ((n + 63) / 64) + cc / 64)
        let w ← portRead k a 8 0
        portWrite k a (bytesOfNat 8 (Nat.lor w (2 ^ (cc % 64)))) 0
      else pure ()
      if mode = 2 then portWrite k (vals + size * (f * n + c.data.toNat)) (bytesOfNat size x) 1
      else if mode ≠ 4 ∧ hasV then portWrite k (vals + size * p) (bytesOfNat size x) 1
      else pure ()
      pop
      own k (fun e => { e with wrote := e.wrote + 1 })
      setRun k (.lwr (if mode = 2 ∨ mode = 4 then p else p + 1) f true (if mode = 4 then vs ++ [v.data] else vs))
  else if c.tag = tDONE then
    pop
    periodEnd k
    streamEnd k
  else
    if mode = 4 then lwrClose k e f vs else pure ()
    if mode ≤ 1 then portWrite k (blk e 0 4 + 4 * (f + 1)) (bytesOfNat 4 p) 0 else pure ()
    if mode = 1 then zeroMask k e (f + 1) else pure ()
    pop
    setRun k (.lwr p (f + 1) true [])

/-! ## Row unit (R369-R371) -/

/-- The sum, the product of two values, and a product and a sum with one rounding, each rounded to FP32. Of zero times infinity added to
a NaN the spec states the NaN for VFMA alone (R301): here it is the canonical one as well (DESIGN CHOICE, log 48). -/
def laneAdd (rm : Rm) (pol : Nat) (x y : Fv) : Nat := convert (orNan [x, y] (fvSum rm [x, y])) fp32 rm pol
def laneMul (rm : Rm) (pol : Nat) (x y : Fv) : Nat := convert (orNan [x, y] (fvMul x y)) fp32 rm pol
def laneFma (rm : Rm) (pol : Nat) (x y z : Fv) : Nat :=
  let pr := fvMul x y
  if !x.isNan && !y.isNan && pr.isNan then canonNan fp32
  else convert (orNan [x, y, z] (fvSum rm [pr, z])) fp32 rm pol

/-- A value as the operand of an instruction that the lane acts as: flushed by FTZI (R81). -/
def laneIn (pol : Nat) (y : Fv) : Fv :=
  match y with
  | .fin _ _ _ _ => if ftzi pol && fvBelow y then .zero y.neg? else y
  | _ => y

/-- The greater or lesser of two values, rounded once to FP32. -/
def lanePick (greater : Bool) (rm : Rm) (pol : Nat) (x y : Fv) : Nat :=
  convert (match firstNan [x, y] with
    | some n => n
    | none => if fvLess x y != greater then x else y) fp32 rm pol

/-- A lane's operation on y (Table 12-7): x0 and y are exact as they enter lane 0 (R73, R370), and what a lane leaves is an FP32 value.
FTZI acts on y where the lane acts as an instruction does, and on the constants; else only on what enters the element (R81). -/
def rowLane (rm : Rm) (pol : Nat) (x0 y : Fv) (op c1 c2 : Nat) : Fv :=
  let a := flush fp32 pol c1
  let b := flush fp32 pol c2
  let yi := laneIn pol y
  let raw := BitVec.ofNat 32 (convert y fp32 .rne 0)
  let out (n : Nat) : Fv := decodeFp fp32 n
  match op with
  | 0 => y
  | 1 => out (laneAdd rm pol y a)
  | 2 => out (laneMul rm pol y a)
  | 3 => out (laneFma rm pol y a b)
  | 4 => out (lanePick true rm pol yi a)
  | 5 => out (lanePick false rm pol yi a)
  | 6 => out (fpExp2 raw yi pol)
  | 7 => out (fpLog2 raw yi pol)
  | 8 => out (fpTanh raw yi pol)
  | 9 => out (convert (fvRcp yi) fp32 rm pol)
  | 10 => out (convert (fvRsq yi) fp32 rm pol)
  | 11 => out (convert (fvSqrt yi) fp32 rm pol)
  | 12 => out (laneMul rm pol y x0)
  | 13 => out (laneAdd rm pol y x0)
  | 14 => out (lanePick false .rne pol (out (lanePick true .rne pol yi a)) b)
  | _ => y.abs

/-- The lanes in order. -/
def rowLanes (e : Elem) (rm : Rm) (pol : Nat) (x0 : Fv) : Nat → Nat → Fv → Fv
  | 0, _, y => y
  | n + 1, l, y =>
    rowLanes e rm pol x0 n (l + 1) (rowLane rm pol x0 y (blk e (16 + 16 * l) 1) (blk e (20 + 16 * l) 4) (blk e (24 + 16 * l) 4))

/-- The counters after a data token, and the highest level that wrapped. -/
def rowCount (lim0 lim1 lim2 lc0 lc1 lc2 : Nat) : (Nat × Nat × Nat) × Option Nat :=
  if lim0 = 0 then ((lc0, lc1, lc2), none)
  else if lc0 + 1 < lim0 then ((lc0 + 1, lc1, lc2), none)
  else if lim1 = 0 then ((0, lc1, lc2), some 0)
  else if lc1 + 1 < lim1 then ((0, lc1 + 1, lc2), some 0)
  else if lim2 = 0 then ((0, 0, lc2), some 1)
  else if lc2 + 1 < lim2 then ((0, 0, lc2 + 1), some 1)
  else ((0, 0, 0), some 2)

def rowStep (k : Nat) : Fire Unit := do
  let e ← fview (fun s => elemAt s k)
  let pol ← fview (fun s => elPol s k)
  let rm ← fview (fun s => elRm s k)
  let d ← fview (fun s => idep s k)
  let w2 ← fview (fun s => isW2 s k 0)
  let gen := bit (blk e 14 1) 0
  let lim (i : Nat) : Nat := blk e (4 * i) 4
  let used := (if lim 0 = 0 then 0 else 1) + (if lim 1 = 0 then 0 else 1) + (if lim 2 = 0 then 0 else 1)
  let (lc0, lc1, lc2, pend) := match e.run with
    | .row a b c p => (a, b, c, p)
    | _ => (0, 0, 0, none)
  let t ← need k 0 (if gen then 1 else d) tVAL
  if t.tag = tVAL then
    if w2 then ffault cCFGBAD 0
    else
      let x0 := elemVal (bits (blk e 13 1) 3 0) pol t.data.toNat
      let y := rowLanes e rm pol x0 (blk e 12 1) 0 x0
      let out := tokVal (elemEnc (bits (blk e 13 1) 7 4) rm pol y)
      let pre : List (Nat × Token) := match pend with
        | some j => [(0, tokStop j)]
        | none => []
      emit k (pre ++ [(0, out)])
      takeTok k 0
      let (lc, w) := rowCount (lim 0) (lim 1) (lim 2) lc0 lc1 lc2
      setRun k (.row lc.1 lc.2.1 lc.2.2 (if gen then w else none))
  else if t.tag = tDONE then
    emit k [(0, tokDone)]
    takeTok k 0
    streamEnd k
  else
    emit k [(0, if gen then tokStop used else { t with data := 0 })]
    takeTok k 0
    setRun k (.row lc0 lc1 lc2 (if gen then none else pend))

/-! ## JOIN (R377) -/

/-- The next place of JSEQ whose input has not delivered DONE; none when every one has. -/
def joinNext (seq len : Nat) (done : List Nat) : Nat → Nat → Option Nat
  | 0, _ => none
  | f + 1, i =>
    let i := i % len
    if done.contains (bits seq (2 * i + 1) (2 * i)) then joinNext seq len done f (i + 1) else some i

/-- One token of the input whose turn it is, checked by R98 against the depth of CTL (DEDUCED, log 33); a token with a reserved tag is
never emitted (R95). -/
def joinStep (k : Nat) : Fire Unit := do
  let e ← fview (fun s => elemAt s k)
  let mode ← fview (fun s => fld s k 0x12)
  let seq ← fview (fun s => fld s k 0x13)
  let len := bits mode 7 5
  let (at_, done) := match e.run with
    | .join a b => (a, b)
    | _ => (0, [])
  if len = 0 then (if e.ins.all (fun i => i.2.isEmpty) then cannot else ffault cCFGBAD 0)
  else
    match joinNext seq len done len at_ with
    | none =>
      emit k [(0, tokDone)]
      streamEnd k
    | some i =>
      let inp := bits seq (2 * i + 1) (2 * i)
      let h ← fview (fun s => headAt s k inp)
      let last ← fview (fun s => look (elemAt s k).last inp)
      let d ← fview (fun s => idep s k)
      match h with
      | none => cannot
      | some t =>
        if !streamOk d last t.tag || (!isData t.tag && !isStop t.tag && t.tag != tDONE) then ffault cCFGBAD inp
        else if t.tag = tDONE then
          takeTok k inp
          setRun k (.join (i + 1) (inp :: done))
        else
          let unit : Bool := match bits mode 1 0 with
            | 0 => true
            | 1 => isStop t.tag && decide (bits mode 4 2 ≤ stopLevel t.tag)
            | _ => false
          emit k [(0, t)]
          takeTok k inp
          setRun k (.join (if unit then i + 1 else i) done)

end Sys2Proof.Machine
end

