-- ==== Sys2Proof/Machine/Memop.lean ====
section
/-! DEFINITION. MEMOP contexts, which context of a site fires, how a firing ends, and the end of a period (spec/04 R100,
spec/05 R136, spec/07 R221, spec/12 R354, R355, R357, R372-R375, R394). -/

namespace Sys2Proof.Machine
open Sys2Proof

/-! ## Layouts (R136, R372, R375) -/

/-- A layout as a MEMOP uses it: DIR, VEC, SGN and WID are ignored. -/
def agtLayout (n : Nat) : BitVec 256 :=
  BitVec.ofNat 256 n &&& ~~~(BitVec.ofNat 256 (2 ^ 192 + 2 ^ 194 + 2 ^ 195 + 2 ^ 196))

/-- Whether a layout is malformed for an element format. -/
def layoutBad (d : BitVec 256) (efmt : Nat) : Bool :=
  db d 199 197 != 0 || db d 255 204 != 0 || db d 203 200 != efmt || (db d 193 193 == 1 && db d 63 32 != 0)

/-- The running state of a MEMOP context. -/
structure Mop where
  layout : BitVec 256
  next : Nat
  pending : Option (BitVec 256)
  msg : List W32
  busy : Bool
  wave : Nat
  past : Bool

/-- The running state, at first with the layout of the parameter block. -/
def mopOf (e : Elem) : Mop :=
  match e.run with
  | .memop l n p m b w o => { layout := l, next := n, pending := p, msg := m, busy := b, wave := w, past := o }
  | _ => { layout := agtLayout (blk e 16 32), next := 0, pending := none, msg := [], busy := false, wave := 0, past := false }

def Mop.run (m : Mop) : Run := .memop m.layout m.next m.pending m.msg m.busy m.wave m.past

/-- Changes the running state. -/
def setMop (k : Nat) (f : Mop → Mop) : Fire Unit := own k (fun e => { e with run := (f (mopOf e)).run })

/-- MODE's fields, EFMT. -/
def mopMode (s : State) (k : Nat) : Nat := bits (fld s k 0x12) 2 0
def mopOrdered (s : State) (k : Nat) : Bool := bit (fld s k 0x12) 3
def mopFmt (e : Elem) : Nat := bits (blk e 4 1) 3 0

/-- One token of a layout message on I3: eight words and S0. A whole message is applied between streams, and else held; a
word of a further one waits while one is held. -/
def layoutTake (k : Nat) : Fire Unit := do
  let h ← fview (fun s => headAt s k 3)
  let e ← fview (fun s => elemAt s k)
  let m := mopOf e
  match h with
  | none => cannot
  | some t =>
    if m.pending.isSome then cannot
    else if t.tag = tCOORD ∧ m.msg.length < 8 then
      takeTok k 3
      setMop k (fun m => { m with msg := m.msg ++ [t.data] })
    else if t.tag = tStop 0 ∧ m.msg.length = 8 then
      let d := agtLayout (natOfBytes (m.msg.flatMap (fun w => bytesOfNat 4 w.toNat)))
      let raw := natOfBytes (m.msg.flatMap (fun w => bytesOfNat 4 w.toNat))
      if layoutBad (BitVec.ofNat 256 raw) (mopFmt e) then ffault cCFGBAD 3
      else
        takeTok k 3
        setMop k (fun m =>
          if m.busy then { m with pending := some d, msg := [] } else { m with layout := d, next := 0, msg := [] })
    else ffault cCFGBAD 3

/-! ## Waves (R374) -/

/-- The members of the chain of a context. -/
def chainOf (s : State) (k : Nat) : List Nat :=
  let wch (j : Nat) : Nat := bits (blk (elemAt s j) 8 1) 1 0
  (range' (k / 4 * 4) 4).filter (fun j => bit (fld s j 1) 0 && mopOrdered s j && wch j == wch k)

def wpred (s : State) (k : Nat) : Nat := blk (elemAt s k) 5 1
def wself (s : State) (k : Nat) : Nat := blk (elemAt s k) 6 1
def wsucc (s : State) (k : Nat) : Nat := blk (elemAt s k) 7 1

/-- Whether a chain is whole: one head, one tail, unique names, predecessors and successors that agree. -/
def chainOk (s : State) (c : List Nat) : Bool :=
  c.all (fun a => c.all (fun b => a == b || wself s a != wself s b)) &&
  (c.filter (fun a => wpred s a = 0xFF)).length == 1 && (c.filter (fun a => wsucc s a = 0xFF)).length == 1 &&
  c.all (fun a =>
    (wsucc s a == 0xFF || c.any (fun b => wself s b == wsucc s a && wpred s b == wself s a)) &&
    (wpred s a == 0xFF || c.any (fun b => wself s b == wpred s a && wsucc s b == wself s a)))

/-- A data token takes its place in its wave, or cannot yet. -/
def wave (k : Nat) : Fire Unit := do
  let on ← fview (fun s => mopOrdered s k)
  let n ← fview (fun s => (mopOf (elemAt s k)).wave)
  if !on then pure ()
  else
    let c ← fview (fun s => chainOf s k)
    let ok ← fview (fun s => chainOk s c)
    let count (s : State) (j : Nat) : Nat := (mopOf (elemAt s j)).wave
    let may ← fview (fun s =>
      if wpred s k = 0xFF then decide (n = 0) || c.any (fun j => wsucc s j == 0xFF && decide (n ≤ count s j))
      else c.any (fun j => wself s j == wpred s k && decide (n < count s j)))
    if !ok then ffault cCFGBAD 0
    else if !may then cannot
    else setMop k (fun m => { m with wave := m.wave + 1 })

/-- A firing of a member of a chain: of one that is not whole it faults, whatever token it takes (R374). -/
def chained (k : Nat) (x : Fire Unit) : Fire Unit := fun s =>
  if mopOrdered s k && !chainOk s (chainOf s k) then
    match x s with
    | .error .no s1 => .error .no s1
    | _ => .error (.fault cCFGBAD 0 none 0) s
  else x s

/-! ## Accesses of the bank (R373) -/

/-- The address of the element of an index: within the site's bank, or ADDR. -/
def mopAddr (k i : Nat) : Fire Nat := do
  let e ← fview (fun s => elemAt s k)
  let size := elemSize (mopFmt e)
  let a := blk e 0 4 + i * size
  if a / 2 ^ 18 ≠ blk e 0 4 / 2 ^ 18 ∨ (a + size - 1) / 2 ^ 18 ≠ a / 2 ^ 18 then
    (fun s => .error (.fault cADDR (BitVec.ofNat 64 a) none 0) s)
  else pure a

/-- The checks of an access to the bank. -/
def mopCheck (k a n : Nat) : Fire Unit := do
  let bad ← fview (fun s => portCheck s k a n)
  match bad with
  | some c => fun s => .error (.fault c (BitVec.ofNat 64 a) none 0) s
  | none => pure ()

/-- A request joins the bank's port F, in its 16 places (R41). -/
def enqueueF (a : Nat) (r : Req) : Fire Unit := do
  let n ← fview (fun s => (nodeAt s (3 * siteKey a)).portF.length)
  if 16 ≤ n then cannot
  else fupd (fun s => updNode s (3 * siteKey a) (fun x => { x with portF := x.portF ++ [{ r with arrival := s.cycle }] }))

def loadMop (k : Nat) : Fire Unit := do
  let e ← fview (fun s => elemAt s k)
  let d ← fview (fun s => idep s k)
  let t ← need k 0 d tCOORD
  if t.tag = tCOORD then
    wave k
    let v ← (if t.data = 0xFFFFFFFF#32 then pure 0 else do
      let a ← mopAddr k t.data.toNat
      portRead k a (elemSize (mopFmt e)) 0)
    emit k [(0, tokVal v)]
    takeTok k 0
  else
    emit k [(0, { t with data := 0 })]
    takeTok k 0
    if t.tag = tDONE then
      periodEnd k
      streamEnd k
    else pure ()

/-- A write has been made for the period. -/
def countWrite (k size : Nat) : Fire Unit := own k (fun e => { e with wrote := e.wrote + 1, bytes := e.bytes + size })

def storeMop (k : Nat) : Fire Unit := do
  let e ← fview (fun s => elemAt s k)
  let d ← fview (fun s => idep s k)
  let size := elemSize (mopFmt e)
  let (i, v) ← needPair k 0 1 d tCOORD tVAL
  let w2 ← fview (fun s => isW2 s k 1)
  if i.tag = tCOORD then
    if w2 then ffault cCFGBAD 1 else pure ()
    wave k
    if i.data = 0xFFFFFFFF#32 then pure ()
    else
      let a ← mopAddr k i.data.toNat
      mopCheck k a size
      enqueueF a { op := none, loc := a, size := size, data := BitVec.ofNat 64 (v.data.toNat % 2 ^ (8 * size)), expected := 0,
                   cid := none, elem := some k, arrival := 0 }
      countWrite k size
    takeTok k 0
    takeTok k 1
  else
    takeTok k 0
    takeTok k 1
    if i.tag = tDONE then
      periodEnd k
      streamEnd k
    else pure ()

/-- An operation by its number, in the row order of Table 2-5. -/
def rmwOp (n : Nat) : AtomOp :=
  ([AtomOp.add, .min, .max, .minu, .maxu, .and, .or, .xor, .swap, .cas, .faddF32, .faddBf16, .amaxrst])[n]?.getD .add

/-- The widths of Table 2-5 that an element has. -/
def rmwWidth (op : AtomOp) (size : Nat) : Bool := if op = .faddBf16 then size == 2 else size == 4

def rmwMop (k : Nat) : Fire Unit := do
  let e ← fview (fun s => elemAt s k)
  let d ← fview (fun s => idep s k)
  let size := elemSize (mopFmt e)
  let op ← fview (fun s => rmwOp (bits (fld s k 0x12) 7 4))
  let ret ← fview (fun s => bit (fld s k 0x12) 8)
  let (i, v) ← needPair k 0 1 d tCOORD tVAL
  let w2 ← fview (fun s => isW2 s k 1)
  if i.tag = tCOORD then
    if w2 != decide (op = .cas) then ffault cCFGBAD 1 else pure ()
    wave k
    let old ← (if i.data = 0xFFFFFFFF#32 then pure 0 else do
      let a ← mopAddr k i.data.toNat
      if !rmwWidth op size || a % size != 0 then (fun s => .error (.fault cALIGN (BitVec.ofNat 64 a) none 0) s) else pure ()
      mopCheck k a size
      let x := v.data.toNat
      let r : Req := { op := some op, loc := a, size := size
                       data := BitVec.ofNat 64 (if op = .cas then x / 65536 else x)
                       expected := BitVec.ofNat 64 (if op = .cas then x % 65536 else 0)
                       cid := none, elem := some k, arrival := 0, pos := some (getD e.count 0 0) }
      let bad ← fview (fun s => poisoned s a size)
      if bad || ret then fupd (fun s => portTurn s true a) else pure ()
      let bad ← fview (fun s => poisoned s a size)
      if bad then (fun s => .error (.fault cECC (BitVec.ofNat 64 a) none 0) s) else pure ()
      countWrite k size
      if ret then (fun s => let q := rmwAt s op a size r.data r.expected; .ok q.1 q.2)
      else do
        enqueueF a r
        pure 0)
    if ret then emit k [(0, tokVal old)] else pure ()
    takeTok k 0
    takeTok k 1
  else
    if ret then emit k [(0, { i with data := 0 })] else pure ()
    takeTok k 0
    takeTok k 1
    if i.tag = tDONE then
      periodEnd k
      streamEnd k
    else pure ()

/-! ## Address generators (R32, R373, R375) -/

/-- The targets of an element of a layout. -/
def agtElem (s : State) (k : Nat) (d : BitVec 256) (e : Nat) (acc : Acc) : Except FaultInfo (List (Xl × Nat)) :=
  let sp := db d 193 193 == 1
  let a := patAddr d e
  let off := a.toNat % patSize d != 0
  let first : Except FaultInfo Unit :=
    if sp then
      if 2 ^ 32 ≤ a.toNat ∨ sPlace s a.toNat = .absent then .error (faultAt cADDR a)
      else if off then .error (faultAt cALIGN a) else .ok ()
    else if !canon a then .error (faultAt cADDR a)
    else if off then .error (faultAt cALIGN a)
    else .ok ()
  first.bind (fun _ => agtTargets s (elemAgt k) sp (elemSuper s k) acc a (patSize d))

/-- An access of another package waits for its mirror point, and for room on the links (R410, R422): whether the access may go on. -/
def agtGate (k : Nat) (xs : List (Xl × Nat)) : Fire Bool := do
  let on ← fview (fun s => bit (dev s 0x100900) 0)
  let p ← fview (fun s => (elemAt s k).point)
  let room ← fview (fun s => injectRoom s 3)
  if !anyPeer xs then pure true
  else if !room then cannot
  else if !on then pure true
  else
    match p with
    | none =>
      fupd (fun s => updElem s k (fun e => { e with point := some (s.host.points + 1) }))
      pure false
    | some n =>
      let ok ← fview (fun s => decide (n ≤ s.host.pointsDone))
      if !ok then cannot
      else
        own k (fun e => { e with point := none })
        pure true

/-- What an access of an AGT meets in its TLB: nothing where it holds every page; else the state in which it has asked the walker for the
page, or none where it has asked already or cannot ask now (R31, R32). -/
def agtStall (s : State) (u : Agt) (sp : Bool) (a : W64) (n : Nat) : Option (Option State) :=
  match agtWaits s u sp a n with
  | none => none
  | some s1 =>
    let asked (s' : State) : Bool :=
      ((linePieces a n).find? (fun p => agtLacks s u p.1)).any (fun p => agtAsked s' u p.1)
    some (if asked s || !asked s1 then none else some s1)

/-- The targets of the next element, or the AGT's fault; none in the step that asks the walker for its page (R32). -/
def agtNext (k : Nat) (m : Mop) (acc : Acc) : Fire (Option (List (Xl × Nat))) := do
  let u := elemAgt k
  let a := patAddr m.layout m.next
  let size := patSize m.layout
  let sp := db m.layout 193 193 == 1
  let first ← fview (fun s => if !sp && a.toNat % size != 0 then none else agtStall s u sp a size)
  match first with
  | some none => cannot
  | some (some s1) =>
    fupd (fun _ => s1)
    pure none
  | none =>
    let r ← fview (fun s => agtElem s k m.layout m.next acc)
    match r with
    | .ok xs =>
      if sp then pure () else fupd (fun s => agtAdvance (agtTouch s u false a size) u a)
      pure (some xs)
    | .error f => fun s => .error (.fault f.cause f.addr none 3) s

/-- AGT-LOAD: one element of the pattern, with the stop that follows it; the end. -/
def agtLoad (k : Nat) : Fire Unit := do
  let m ← fview (fun s => mopOf (elemAt s k))
  let n := patCount m.layout
  if m.past then cannot
  else if n = 0 then
    emit k [(0, tokStop 2), (0, tokDone)]
    streamEnd k
  else
    let nx ← agtNext k m .rd
    let xs := nx.getD []
    let go ← agtGate k xs
    if nx.isNone || !go then pure ()
    else
      wave k
      let r ← fview (fun s => agtRead s (elemAgt k) (db m.layout 193 193 == 1) (elemSuper s k) (patAddr m.layout m.next)
        (patSize m.layout))
      match r with
      | .error f => fun s => .error (.fault f.cause f.addr none 3) s
      | .ok ((bs, bad), s1) =>
        if bad then (fun s => .error (.fault cECC (patAddr m.layout m.next) none 3) s)
        else
          fupd (fun _ => s1)
          let (i0, i1, _) := patIndex m.layout m.next
          let last := decide (m.next + 1 = n)
          let stop : List (Nat × Token) :=
            if last then [(0, tokStop 2), (0, tokDone)]
            else if i0 + 1 ≠ db m.layout 95 64 then []
            else if i1 + 1 = db m.layout 111 96 then [(0, tokStop 1)]
            else [(0, tokStop 0)]
          emit k ((0, tokVal (natOfBytes bs)) :: stop)
          setMop k (fun m => { m with next := m.next + 1, busy := true })
          if last then streamEnd k else pure ()

/-- AGT-STORE: one token of I1. -/
def agtStore (k : Nat) : Fire Unit := do
  let m ← fview (fun s => mopOf (elemAt s k))
  let d ← fview (fun s => idep s k)
  let t ← need k 1 d tVAL
  let size := patSize m.layout
  if t.tag = tVAL then
    let w2 ← fview (fun s => isW2 s k 1)
    if w2 || decide (patCount m.layout ≤ m.next) then ffault cCFGBAD 1
    else
      let nx ← agtNext k m .wr
      let xs := nx.getD []
      let held ← fview (fun s => anyHeld s xs)
      if held then cannot
      else
        let go ← agtGate k xs
        if nx.isNone || !go then pure ()
        else
          wave k
          fupd (fun s => agtWrite (elemAgt k) s xs (bytesOfNat size t.data.toNat) false)
          countWrite k size
          own k (fun e => { e with away := e.away ++ awayLines xs })
          takeTok k 1
          setMop k (fun m => { m with next := m.next + 1, busy := true })
  else
    takeTok k 1
    if t.tag = tDONE then
      periodEnd k
      streamEnd k
    else setMop k (fun m => { m with busy := true })

def memopStep (k : Nat) : Fire Unit := do
  let m ← fview (fun s => mopMode s k)
  match m with
  | 0 => chained k (loadMop k)
  | 1 => chained k (storeMop k)
  | 2 => chained k (rmwMop k)
  | 3 => orElse (layoutTake k) (chained k (agtLoad k))
  | 4 => orElse (layoutTake k) (chained k (agtStore k))
  | _ => cannot

/-! ## Which context fires (R221, R354) -/

/-- The step of a kind of element. -/
def stepOf (kind k : Nat) : Fire Unit :=
  match kind with
  | 1 => scnStep k
  | 2 => twoStep k false
  | 3 => twoStep k true
  | 4 => rptStep k
  | 5 => redStep k
  | 6 => lwrStep k
  | 7 => vrdStep k
  | 8 => cmbStep k
  | 9 => rowStep k
  | 0xB => memopStep k
  | 0xC => joinStep k
  | _ => cannot

/-- Whether a context is resident, and neither stopped, faulted, waiting nor between periods. -/
def elemReady (s : State) (k : Nat) : Bool :=
  let e := elemAt s k
  bit (fld s k 1) 0 && !e.frozen && e.faulted.isNone && e.reading.isNone && !e.waiting && !e.ended && !e.marked

/-- Whether a context takes layout messages (R373), and may take one now: while it waits for a start token too, and between periods
(R136). -/
def layoutReady (s : State) (k : Nat) : Bool :=
  let e := elemAt s k
  kindAt s (k / 4) == 0xB && (mopMode s k == 3 || mopMode s k == 4) &&
    bit (fld s k 1) 0 && !e.frozen && e.faulted.isNone && e.reading.isNone && !e.marked && (e.waiting || e.ended)

/-- The first firing of a graph starts it (R350). -/
def startGraph (s : State) (site : Nat) : State :=
  match graphAt s site with
  | none => s
  | some (b, g) =>
    if g.started then s
    else { s with fab := { s.fab with graphs := put s.fab.graphs b { g with started := true } } }

/-- An element context faults: it withholds its output from then on; its stream position, or its AGT's counters, go to
the record (R357, R375, R394). -/
def elemFault (s : State) (k cause : Nat) (addr : W64) (pos : Option Nat) (inp : Nat) : State :=
  let e := elemAt s k
  let agt := decide (kindAt s (k / 4) = 0xB) && decide (3 ≤ mopMode s k) && inp == 3 && cause != cCFGBAD
  let r := elemRec s k cause addr (some (pos.getD (getD e.count 0 inp))) (.elem k) []
  let r1 := if agt then { r with pos := some (patIndex (mopOf e).layout (mopOf e).next)
                                 port := some (if mopMode s k = 4 then 1 else 0) } else r
  raiseRec (updElem (reqDone s [4096 + 128 + k]) k (fun e => { e with faulted := some none, agtFault := agt })) (k / 4 / 2304) r1

/-- What a context does when it fires: a layout message that it may take while it waits; what it has emitted leaves; else its step. None
where it cannot fire. -/
def tryFire (s : State) (k : Nat) : Option State :=
  let run (x : Fire Unit) : Option State :=
    match x s with
    | .ok _ s1 => some s1
    | .error .no _ => none
    | .error (.fault c a p i) s1 => some (elemFault (if c = cBMV then s1 else s) k c a p i)
  if layoutReady s k then run (layoutTake k)
  else if !elemReady s k then none
  else if !(elemAt s k).outq.isEmpty then
    let s1 := flushOut k 16 s
    if (elemAt s1 k).outq.length < (elemAt s k).outq.length then some s1 else none
  else run (stepOf (kindAt s (k / 4)) k)

/-- The context of a site that fires next: the running one while it can and has quota, else the next that can and has
quota, else the next that can. -/
def arbiter (s : State) (site : Nat) : Option Nat :=
  let can (k : Nat) : Bool := (tryFire s k).isSome
  match (range' (4 * site) 4).filter (fun k => bit (fld s k 1) 0) with
  | [] => none
  | [k] => if can k then some k else none
  | _ =>
    let run := getD s.fab.running 0 site
    let turn := (range' 0 4).map (fun i => 4 * site + (run + i) % 4)
    match turn.find? (fun k => decide (0 < (elemAt s k).quota) && can k) with
    | some k => some k
    | none => (turn.drop 1 ++ turn.take 1).find? can

/-- Whether a step of a context was a firing: not one that only asks the walker for a page, or waits for a mirror point. -/
def hasFired (s s1 : State) (k : Nat) : Bool := { elemAt s1 k with point := none } != { elemAt s k with point := none }

/-- A firing of a context of a kind. -/
def fireElem (kind k : Nat) (s : State) : State :=
  if kindAt s (k / 4) ≠ kind ∨ arbiter s (k / 4) ≠ some k then s
  else
    match tryFire s k with
    | none => s
    | some s1 =>
      if !hasFired s s1 k then s1 else
      let s2 := startGraph s1 (k / 4)
      -- a step that only sends what a firing has left behind is no firing of its own
      let s3 := updElem s2 k (fun e => { e with quota := if (elemAt s k).outq.isEmpty then e.quota - 1 else e.quota, idleFor := 0 })
      { s3 with fab := { s3.fab with running := setD s3.fab.running 0 (k / 4) (k % 4) } }

/-- A period of a site's arbiter begins: quotas from the mean occupancies of the last, which are summed over its 256 cycles. -/
def arbiterPeriod (s : State) (site : Nat) : State :=
  if s.cycle < getD s.fab.period 0 site + 256 then s
  else
    let res := (range' (4 * site) 4).filter (fun k => bit (fld s k 1) 0)
    let w (k : Nat) : Nat := 256 + (elemAt s k).occ
    let total := (res.map w).foldl (· + ·) 0
    let set1 (s' : State) (k : Nat) : State := updElem s' k (fun e =>
      let q := 256 * w k / max total 1
      { e with occ := 0, quota := if e.ins.any (fun i => !i.2.isEmpty) then max q 16 else q })
    let s1 := res.foldl set1 s
    { s1 with fab := { s1.fab with period := put s1.fab.period site s.cycle } }

/-- A SKIP at a context whose output it came on (R100). -/
def skipEvent (s : State) (k : Nat) : State :=
  if !elemReady s k then s
  else
    match skipStep k s with
    | .ok _ s1 => s1
    | .error .no _ => s
    | .error (.fault c a p i) _ => elemFault s k c a p i

/-! ## The end of a period (R355) -/

/-- The signal of a period: at a target, with the elements and bytes written. -/
def periodSignal (s0 : State) (k : Nat) : Except Nat State :=
  let e := elemAt s0 k
  let t := getD e.addrs 0 0x32
  let cm := fld s0 k 0x30
  let super := elemSuper s0 k
  let s := if sPlace s0 t == .bank then portTurn s0 true t else s0
  let at_ (align size : Nat) : Except Nat Nat :=
    match checkObj s (BitVec.ofNat 64 t) align super with
    | .error f => .error f.cause
    | .ok a => if poisoned s a size then .error cECC else .ok a
  match bits cm 1 0 with
  | 0 => .ok s0
  | 1 => (at_ 8 8).bind (fun a => futResolve s a e.wrote)
  | 2 =>
    if bit cm 2 then (at_ 64 0).map (fun a => fireRecord s a (BitVec.ofNat 64 e.wrote))
    else endpointToken s0 t
  | _ => (at_ 16 16).bind (fun a => (barUpdate s a 1 (-(e.bytes : Int))).map (·.2))

/-- PERIOD_COMPLETION: once the period's writes are made, its signal is sent; a fault of the signal is recorded, and the
context goes on. A release at SYSTEM scope waits for its mirror point (R410). -/
def periodCompletion (s : State) (k : Nat) : State :=
  let e := elemAt s k
  let cm := fld s k 0x30
  let gate := bit (dev s 0x100900) 0 && bits cm 1 0 != 0 && bits cm 5 3 == 4
  if !e.ended ∨ e.frozen ∨ !(nodeAt s (3 * (k / 4))).portF.isEmpty ∨ awayDue s e.away then s
  else if gate && e.point.isNone then updElem s k (fun e => { e with point := some (s.host.points + 1) })
  else if gate && decide (s.host.pointsDone < e.point.getD 0) then s
  else
    let done (s : State) : State :=
      updElem s k (fun e => { e with ended := false, wrote := 0, bytes := 0, away := [], point := none })
    match periodSignal s k with
    | .ok s1 => done s1
    | .error c =>
      let r := elemRec s k c (BitVec.ofNat 64 (getD e.addrs 0 0x32)) none .none []
      raiseRec (done s) (k / 4 / 2304) r

end Sys2Proof.Machine
end

