-- ==== Sys2Proof/Machine/Matrix.lean ====
section
/-! DEFINITION. The matrix cell: operands, sums, the Madder decoder, drains, MXOP commands (spec/03 R72-R90, spec/04
R106-R113, R117, spec/12 R379-R389). -/

namespace Sys2Proof.Machine
open Sys2Proof

/-! ## Configuration (Tables 12-8, 12-9) -/

/-- The fields of a cell. -/
structure CellCfg where
  m : Nat
  n : Nat
  kc : Nat
  kch : Nat
  fa : Nat
  fb : Nat
  bcode : Bool
  bmen : Bool
  cbk : Bool
  nbA : Nat
  nbB : Nat
  alt : Bool
  manf : Bool
  dtgt : Nat
  man : Bool
  ofmt : Nat
  w2 : Bool
  scen : Bool
  zpen : Bool
  bien : Bool
  zrem : Bool
  pol : Nat
  rm : Rm
  blk : List Byte

/-- A cell's configuration as applied. -/
def cellCfg (s : State) (key : Nat) : CellCfg :=
  let k := 4 * key
  let f := fld s k
  { m := bits (f 0x12) 5 0 + 1, n := bits (f 0x12) 11 6 + 1, kc := f 0x13 + 1, kch := f 0x14 + 1
    fa := bits (f 0x15) 3 0, fb := bits (f 0x15) 7 4, bcode := bit (f 0x15) 8, bmen := bit (f 0x15) 9, cbk := bit (f 0x15) 12
    nbA := 2 ^ bits (f 0x16) 1 0, nbB := 2 ^ bits (f 0x16) 3 2, alt := bit (f 0x16) 4, manf := bit (f 0x16) 5
    dtgt := bits (f 0x17) 1 0, man := bit (f 0x17) 2, ofmt := bits (f 0x17) 6 3, w2 := bit (f 0x17) 7
    scen := bit (f 0x17) 8, zpen := bit (f 0x17) 9, bien := bit (f 0x17) 10, zrem := bit (f 0x17) 11
    pol := elPol s k, rm := elRm s k, blk := (elemAt s k).block }

/-- A field of the parameter block: its first byte and length. -/
def CellCfg.par (c : CellCfg) (lo n : Nat) : Nat := natOfBytes ((c.blk.drop lo).take n)

/-- Whether an operand pair accumulates integers (R384). -/
def CellCfg.ints (c : CellCfg) : Bool := [7, 8].contains c.fa && [7, 8, 9].contains c.fb

/-- The k-group (Table 12-10). -/
def CellCfg.g (c : CellCfg) : Nat :=
  if [1, 2].contains c.fa || [1, 2].contains c.fb || (c.fb == 0xA && c.cbk) then 1
  else if !c.bcode && c.fa == c.fb && [5, 6, 8].contains c.fa then 8
  else 2

/-- The format of an element as it is laid out: MXFP4 elements are FP4. -/
def rawFmt (f : Nat) : Nat := if f = 6 then 5 else f

/-- The pitch of a line of elements: whole units of 32 bytes (R381). -/
def linePitch (f n : Nat) : Nat := if fourBit f then (n + 63) / 64 * 32 else (n * elemSize f + 31) / 32 * 32

/-- The bytes of an operand tile (R381). -/
def CellCfg.bytesA (c : CellCfg) : Nat := c.m * linePitch c.fa c.kc
def CellCfg.bytesB (c : CellCfg) : Nat :=
  if c.fb = 6 then c.n * linePitch 6 c.kc
  else if c.fb = 0xB then (c.kc + 7) / 8 * linePitch 0xB c.n
  else c.kc * linePitch c.fb c.n

/-- Where the block bitmap lies in a buffer, and its bytes (R381). -/
def CellCfg.maskAt (c : CellCfg) : Nat := (c.bytesA + 63) / 64 * 64
def CellCfg.maskBytes (c : CellCfg) : Nat := ((c.m + 7) / 8 * ((c.kc + 7) / 8) + 511) / 512 * 64

/-! ## Operands (R75-R78, R384, R385) -/

/-- The raw element i of a line. -/
def rawElem (s : State) (f row i : Nat) : Nat :=
  let p := place f (row : Int) i
  let v := rdNat s p.1.toNat (cellSize f)
  if fourBit f then (if p.2 then v / 16 else v % 16) else v

/-- An integer operand's value. -/
def rawInt (f v : Nat) : Int :=
  match f with
  | 7 => sgn 8 v
  | 8 => sgn 4 v
  | _ => (v % 16 : Nat)

/-- 2^(e - 127) of an E8M0 byte. -/
def e8m0Of (e : Nat) : Fv := elemVal 0xD 0 e

/-- A product, with every NaN the canonical one. -/
def mulC (a b : Fv) : Fv := if a.isNan || b.isNan then .nan none else fvMul a b

/-- What a matrix operation works on: its cell, accumulator, buffers, tile and chunk. -/
structure MatOp where
  key : Nat
  cfg : CellCfg
  cell : Cell
  baseA : Nat
  baseB : Nat
  t : Nat
  c : Nat

/-- The K-row of the tile that a K-row of the chunk is. -/
def MatOp.kAll (o : MatOp) (k : Nat) : Nat := o.c * o.cfg.kc + k
def MatOp.kTotal (o : MatOp) : Nat := o.cfg.kc * o.cfg.kch

/-- A[i][k], and its block's scale. -/
def MatOp.rawA (o : MatOp) (s : State) (i k : Nat) : Nat := rawElem s o.cfg.fa (o.baseA + i * linePitch o.cfg.fa o.cfg.kc) k
def MatOp.scA (o : MatOp) (s : State) (i k : Nat) : Fv :=
  let nb := (o.kTotal + 31) / 32
  e8m0Of (rdNat s (o.cfg.par 12 4 + o.t * o.cfg.m * nb + i * nb + o.kAll k / 32) 1)
def MatOp.valA (o : MatOp) (s : State) (i k : Nat) : Fv :=
  let v := elemVal (rawFmt o.cfg.fa) o.cfg.pol (o.rawA s i k)
  if o.cfg.fa = 6 then mulC v (o.scA s i k) else v

/-- The raw bits of B[k][j]: an element, or an index of VQ2. -/
def MatOp.rawB (o : MatOp) (s : State) (k j : Nat) : Nat :=
  let c := o.cfg
  let sym (r : Nat) : Nat := ((o.cell.rows[r]?.getD [])[j]?).getD 0
  if c.fb = 0xB then
    if c.bcode then sym (4 * (k / 8)) + 16 * sym (4 * (k / 8) + 1) + 256 * sym (4 * (k / 8) + 2) + 4096 * sym (4 * (k / 8) + 3)
    else rawElem s 0xB (o.baseB + k / 8 * linePitch 0xB c.n) j
  else if c.bcode then sym k
  else if c.fb = 6 then rawElem s 6 (o.baseB + j * linePitch 6 c.kc) k
  else rawElem s c.fb (o.baseB + k * linePitch c.fb c.n) j

/-- B[k][j] with its scales. -/
def MatOp.valB (o : MatOp) (s : State) (k j : Nat) : Fv :=
  let c := o.cfg
  let r := o.rawB s k j
  match c.fb with
  | 6 =>
    let nb := (o.kTotal + 31) / 32
    mulC (elemVal 5 0 r) (e8m0Of (rdNat s (c.par 16 4 + o.t * c.n * nb + j * nb + o.kAll k / 32) 1))
  | 0xA =>
    if c.cbk then decodeFp bf16 (natOfBytes ((o.cell.cb.drop (2 * r)).take 2)) else decodeFp e4m3 (natOfBytes ((o.cell.cb.drop r).take 1))
  | 0xB =>
    let nb := (o.kTotal + 63) / 64
    let w := natOfBytes ((o.cell.pt.drop (4 * bits r 14 7)).take 4)
    let sc := rdNat s (c.par 20 4 + 2 * o.t * c.n * nb + 2 * (j * nb + o.kAll k / 64)) 2
    mulC (halves ((vq2 r w).getD (k % 8) 0)) (decodeFp bf16 sc)
  | f => elemVal f c.pol r

/-- Whether the block bitmap declares A[i][k] zero (R385). -/
def MatOp.skip (o : MatOp) (s : State) (i k : Nat) : Bool :=
  o.cfg.bmen &&
  (let n := i / 8 * ((o.cfg.kc + 7) / 8) + k / 8
   bit (rdByte s (o.baseA + o.cfg.maskAt + n / 8)).toNat (n % 8))

/-! ## Sums (R74, R384) -/

/-- Rounding to FP56. -/
def r56 (x : Fv) : Nat := if x.isNan then canonNan fp56 else convert x fp56 .rne 0

/-- An INT56 update: the new value, and whether it saturated. -/
def sat56 (acc : Nat) (d : Int) : Nat × Bool :=
  let v := sgn 56 acc + d
  if v < -(2 ^ 55 : Int) then (2 ^ 55, true)
  else if (2 ^ 55 : Int) ≤ v then (2 ^ 55 - 1, true)
  else (wrapI 56 v, false)

/-- One update of an accumulator or row sum by a group's terms. -/
def accFp (acc : Nat) (ts : List Fv) : Nat :=
  if ts.isEmpty then acc
  else if ts.any Fv.isNan then canonNan fp56
  else r56 (fvSum .rne (decodeFp fp56 acc :: ts))

/-- A group's update of one accumulator tile and its row sums: values by 64 * i + j, and the saturation. -/
def groupStep (s : State) (o : MatOp) (z r : FMap (BitVec 56)) (k0 : Nat) : (FMap (BitVec 56) × FMap (BitVec 56)) × Bool :=
  let c := o.cfg
  let ks := range' k0 (min c.g (c.kc - k0))
  let kept (i : Nat) : List Nat := ks.filter (fun k => !o.skip s i k)
  let one (acc : Nat) (i : Nat) (j : Option Nat) : Nat × Bool :=
    if c.ints then
      let d := (kept i).foldl (fun a k =>
        let x := rawInt c.fa (o.rawA s i k)
        a + (match j with
          | some j => x * rawInt c.fb (o.rawB s k j)
          | none => x)) (0 : Int)
      sat56 acc d
    else
      (accFp acc ((kept i).map (fun k =>
        match j with
        | some j => mulC (o.valA s i k) (o.valB s k j)
        | none => if (o.valA s i k).isNan then .nan none else o.valA s i k)), false)
  let zs := (range' 0 c.m).flatMap (fun i => (range' 0 c.n).map (fun j =>
    (64 * i + j, one (getD z 0 (64 * i + j)).toNat i (some j))))
  let rs := (range' 0 c.m).map (fun i => (i, one (getD r 0 i).toNat i none))
  let pack (l : List (Nat × Nat × Bool)) : FMap (BitVec 56) :=
    (l.filter (fun x => x.2.1 ≠ 0)).map (fun x => (x.1, BitVec.ofNat 56 x.2.1))
  ((pack zs, pack rs), zs.any (fun x => x.2.2) || rs.any (fun x => x.2.2))

/-- Groups of a chunk in ascending k, up to a K-row; fuel counts them. -/
def groups (s : State) (o : MatOp) (upto : Nat) :
    Nat → Nat → FMap (BitVec 56) × FMap (BitVec 56) → Bool → (FMap (BitVec 56) × FMap (BitVec 56)) × Bool × Nat
  | 0, k, zr, sat => (zr, sat, k)
  | f + 1, k, zr, sat =>
    if upto ≤ k then (zr, sat, k)
    else
      let r := groupStep s o zr.1 zr.2 k
      groups s o upto f (k + o.cfg.g) r.1 (sat || r.2)

/-! ## What a cell may do -/

/-- Whether a cell is resident with its parameter block, and neither stopped, faulted nor frozen. -/
def cellReady (s : State) (key : Nat) : Bool :=
  let e := elemAt s (4 * key)
  kindAt s key == 0xA && bit (fld s (4 * key) 1) 0 && !e.block.isEmpty && !e.frozen && e.faulted.isNone && e.reading.isNone && !(cellAt s key).stopped

/-- The tag of an accumulator. -/
def Cell.tag (c : Cell) (zb : Bool) : AccTag := if zb then c.tagB else c.tagA
def Cell.setTag (c : Cell) (zb : Bool) (t : AccTag) : Cell := if zb then { c with tagB := t } else { c with tagA := t }

/-- The operation that a cell's chunk is. -/
def matOp (s : State) (key : Nat) (b : Chunk) : MatOp :=
  let c := cellAt s key
  { key := key, cfg := cellCfg s key, cell := c, baseA := bufBase s key 0 b.a, baseB := bufBase s key 1 b.b, t := c.t, c := c.c }

/-- A fault of a cell, which does not fire again until it is reconfigured (R386, R394). -/
def cellFault (s : State) (key cause : Nat) (addr : W64) (detail : List Byte) : State :=
  let s1 := updCell (updElem s (4 * key) (fun e => { e with faulted := some none })) key (fun c => { c with stopped := true })
  raiseRec s1 (key / 2304) (elemRec s (4 * key) cause addr none (.elem (4 * key)) detail)

/-- A refusal or a fault of a command, recorded against the graph (R389). -/
def cellRefuse (s : State) (key cause : Nat) : State :=
  raiseRec s (key / 2304) (elemRec s (4 * key) cause 0 none .none [])

/-- Resolves a command's future with 0. -/
def resolveFut (s0 : State) (key fut : Nat) (super : Bool) : State :=
  if fut = 0xFFFFFFFF then s0
  else
    let s := if sPlace s0 fut == .bank then portTurn s0 true fut else s0
    let r : Except Nat State := match checkObj s (BitVec.ofNat 64 fut) 8 super with
      | .error f => .error f.cause
      | .ok a => if poisoned s a 8 then .error cECC else futResolve s a 0
    match r with
    | .ok s1 => s1
    | .error c => raiseRec s (key / 2304) (elemRec s (4 * key) c (BitVec.ofNat 64 fut) none .none [])

def doneCmd (s : State) (key : Nat) (c : Option CellCmd) : State :=
  match c with
  | none => s
  | some c => resolveFut s key (c.cmd.toNat / 2 ^ 32) c.super

/-- The arrays of scales that an operation reads: address and bytes. -/
def MatOp.arrays (o : MatOp) : List (Nat × Nat) :=
  let c := o.cfg
  let mx := (o.kTotal + 31) / 32
  let vq := (o.kTotal + 63) / 64
  (if c.fa = 6 then [(c.par 12 4 + o.t * c.m * mx, c.m * mx)] else []) ++
  (if c.fb = 6 then [(c.par 16 4 + o.t * c.n * mx, c.n * mx)] else []) ++
  (if c.fb = 0xB then [(c.par 20 4 + 2 * o.t * c.n * vq, 2 * c.n * vq)] else [])

/-- What reading arrays in banks meets, and the state in which their words are at rest. -/
def arraysAt (s : State) (k : Nat) (l : List (Nat × Nat)) : Option (Nat × Nat) × State :=
  l.foldl (fun (r : Option (Nat × Nat) × State) x =>
    match r.1 with
    | some _ => r
    | none =>
      match portCheck r.2 k x.1 x.2 with
      | some c => (some (c, x.1), r.2)
      | none =>
        let s1 := (homeRead (portTurn r.2 true x.1) x.1 x.2).2
        (if poisoned s1 x.1 x.2 then some (cECC, x.1) else none, s1)) (none, s)

/-- A chunk begins on an accumulator and buffers (R382): none where its conditions do not hold. A poisoned buffer faults the
cell before any k-step (R402). -/
def beginChunk (s : State) (key : Nat) (b : Chunk) : Option State :=
  let c := cellAt s key
  let tag := c.tag b.zb
  if c.busy.isSome ∨ !tagFull s (.buffer key 0 b.a) ∨ !tagFull s (.buffer key 1 b.b) ∨
      !((tag == .empty && c.c == 0) || (tag == .live && decide (0 < c.c))) then none
  else
    let o := matOp s key b
    let sizeB := if o.cfg.bcode then bufSize s key 1 else o.cfg.bytesB
    let lenA := if o.cfg.bmen then o.cfg.maskAt + o.cfg.maskBytes else o.cfg.bytesA
    let bad (a : Nat) (s : State) : Option State := some (cellFault s key cECC (BitVec.ofNat 64 a) [])
    let taint (n : Nat) : Bool := look c.taint n == some .poison
    if poisoned s o.baseA lenA ∨ taint b.a then bad o.baseA s
    else if poisoned s o.baseB sizeB ∨ taint (8 + b.b) then bad o.baseB s
    else
      match arraysAt s (4 * key) o.arrays with
      | (some (cause, a), s1) => some (cellFault s1 key cause (BitVec.ofNat 64 a) [])
      | (none, s1) =>
        some (updCell (updElem (startGraph s1 key) (4 * key) (fun e => { e with done := false })) key (fun c => { c.setTag b.zb .live with busy := some b, k := 0 }))

/-- MATRIX_OP_FIRE: the next operation under the dataflow rule (R382). -/
def matrixFire (s : State) (key : Nat) : State :=
  let cfg := cellCfg s key
  let c := cellAt s key
  if !cellReady s key ∨ cfg.manf then s
  else
    (beginChunk s key { zb := cfg.alt && c.t % 2 == 1, a := c.nextA % cfg.nbA, b := c.nextB % cfg.nbB, cmd := none }).getD s

/-! ## The Madder decoder (R106-R113, R386) -/

/-- The tile number of a chunk, and its index entry. -/
def MatOp.tileNo (o : MatOp) : Nat := o.cfg.par 40 4 + o.t * o.cfg.kch + o.c

/-- Bands' starts and the end of the last, from a header at a location. -/
def bandBounds (s : State) (loc bands : Nat) : List Nat :=
  [16] ++ (range' 1 (bands - 1)).map (fun b => rdNat s (loc + 4 * b) 4) ++ [rdNat s loc 4]

/-- The lowest band whose offset or length fails (R109, R112). -/
def headerBad (bs : List Nat) (bands size : Nat) : Option Nat :=
  let at_ (b : Nat) : Nat := bs.getD b 0
  match (range' 0 bands).find? (fun b =>
    (decide (0 < b) && (at_ b % 16 != 0 || decide (at_ b ≤ at_ (b - 1)))) || decide (at_ (b + 1) < at_ b + 512)) with
  | some b => some b
  | none => if size < at_ bands then some (bands - 1) else none

/-- The frequencies of a table. -/
def freqs (ft : List Byte) (fsel : Nat) : List Nat := (range' 0 16).map (fun i => natOfBytes ((ft.drop (32 * fsel + 2 * i)).take 2))

/-- The checks of a tile's index entry, table and header: what they say, or the failing band (R107-R110, R112). -/
def codedAt (s : State) (o : MatOp) (entry : Nat) : Except Nat CodedTab :=
  let bands := bits entry 38 36
  let size := bufSize s o.key 1
  let kt := 256 * bands
  if bits entry 63 42 ≠ 0 ∨ ! [1, 2, 4].contains bands ∨ kt ≠ (if o.cfg.fb = 0xB then o.cfg.kc / 2 else o.cfg.kc) ∨
      (o.cfg.fb = 0xB ∧ o.cfg.kc % 2 ≠ 0) then .error 0
  else if bit entry 39 then
    if size < 32 * kt then .error 0 else .ok { bands := bands, stored := true, freqs := [], bounds := [] }
  else if (freqs o.cell.ft (bits entry 41 40)).foldl (· + ·) 0 ≠ 4096 then .error 0
  else
    let bs := bandBounds s o.baseB bands
    match headerBad bs bands size with
    | some b => .error b
    | none => .ok { bands := bands, stored := false, freqs := freqs o.cell.ft (bits entry 41 40), bounds := bs }

/-- The symbol of a slot, with its frequency and the sum of those before it. -/
def symbolOf (slot : Nat) : List Nat → Nat → Nat → Nat × Nat × Nat
  | [], i, cum => (i, 0, cum)
  | f :: r, i, cum => if slot < cum + f then (i, f, cum) else symbolOf slot r (i + 1) (cum + f)

/-- One step of the lanes: new states, symbols, word pointer; or the lane whose check failed. -/
def laneStep (s : State) (fr : List Nat) (base end_ : Nat) : List Nat → Nat → Nat → Except Nat (List Nat × List Nat × Nat)
  | [], _, w => .ok ([], [], w)
  | x :: r, l, w =>
    let slot := x % 4096
    let (sy, f, cum) := symbolOf slot fr 0 0
    let y := f * (x / 4096) + slot - cum
    let more (y w : Nat) : Except Nat (List Nat × List Nat × Nat) :=
      match laneStep s fr base end_ r (l + 1) w with
      | .error e => .error e
      | .ok (ys, ss, w') => .ok (y :: ys, sy :: ss, w')
    if y < 65536 then
      if end_ < w + 2 then .error l else more (y % 65536 * 65536 + rdNat s (base + w) 2) (w + 2)
    else more y w

/-- The even or the odd elements of a list. -/
def everyOther {α : Type} : List α → List α
  | [] => []
  | [x] => [x]
  | x :: _ :: r => x :: everyOther r

/-- The steps of a band: symbol rows, and the final states. -/
def bandSteps (s : State) (fr : List Nat) (base end_ : Nat) :
    Nat → List Nat → Nat → List (List Nat) → Except Nat (List (List Nat) × List Nat × Nat)
  | 0, xs, w, rows => .ok (rows, xs, w)
  | t + 1, xs, w, rows =>
    match laneStep s fr base end_ xs 0 w with
    | .error l => .error l
    | .ok (ys, ss, w') => bandSteps s fr base end_ t ys w' (rows ++ [everyOther ss, everyOther (ss.drop 1)])

/-- The first lane whose state fails a test. -/
def badLane (xs : List Nat) (p : Nat → Bool) : Option Nat := xs.findIdx? p

/-- A band of a coded tile whose buffer lies at a base: from start to end_ (R111). -/
def codedBand (s : State) (fr : List Nat) (base start end_ : Nat) : Except Nat (List (List Nat) × List Nat × Nat) :=
  let xs := (range' 0 128).map (fun l => rdNat s (base + start + 4 * l) 4)
  match badLane xs (fun x => decide (x < 65536)) with
  | some l => .error l
  | none =>
    match bandSteps s fr base end_ 128 xs (start + 512) [] with
    | .error l => .error l
    | .ok (rows, ys, w) =>
      match badLane ys (fun x => decide (x ≠ 65536)) with
      | some l => .error l
      | none => .ok (rows, ys, w)

/-- Symbol row r of a raw tile (R108). -/
def rawRow (s : State) (o : MatOp) (r : Nat) : List Nat :=
  (range' 0 64).map (fun j =>
    if o.cfg.fb = 0xB then rdNat s (o.baseB + 128 * (r / 4) + 2 * j) 2 / 16 ^ (r % 4) % 16
    else rawElem s 9 (o.baseB + 32 * r) j)

/-- The K-rows that decoded symbol rows give. -/
def MatOp.ready (o : MatOp) : Nat :=
  if !o.cfg.bcode then o.cfg.kc else min o.cfg.kc ((if o.cfg.fb = 0xB then 2 else 1) * o.cell.rows.length)

/-- The k-steps of the chunk in progress up to a K-row. -/
def runSteps (s : State) (key upto : Nat) : State :=
  let c := cellAt s key
  match c.busy with
  | none => s
  | some b =>
    let o := matOp s key b
    let (zr, sat, k) := groups s o (min upto o.ready) (o.cfg.kc + 1) c.k (if b.zb then (c.zb, c.rb) else (c.za, c.ra)) false
    updCell s key (fun c =>
      if b.zb then { c with zb := zr.1, rb := zr.2, satB := c.satB || sat, k := k }
      else { c with za := zr.1, ra := zr.2, satA := c.satA || sat, k := k })

/-- A tile's malformation: the bands already released are summed, the accumulator is left LIVE, and the cell stops (R112, R386). -/
def malformed (s : State) (o : MatOp) (zb : Bool) (band lane : Nat) : State :=
  let s1 := updCell (runSteps s o.key o.cfg.kc) o.key (fun c => if c.tag zb = .empty then c.setTag zb .live else c)
  cellFault s1 o.key cMADDER 0 (bytesOfNat 4 o.tileNo ++ bytesOfNat 1 band ++ bytesOfNat 1 lane)

/-- The chunk that follows the one in progress, once its B buffer is known and full: the buffer, and its tile's operation (R386). -/
def nextChunk (s : State) (key : Nat) (b : Chunk) : Option (Nat × MatOp) :=
  let c := cellAt s key
  let cfg := cellCfg s key
  let left := getD c.reuse (cfg.par 51 1) (8 + b.b) - 1
  let nb := if !cfg.manf then some (if left ≠ 0 then b.b else (b.b + 1) % cfg.nbB)
    else match c.cmds.head? with
      | some x => if bits x.cmd.toNat 3 0 = 0 then some (bits x.cmd.toNat 10 8) else none
      | none => none
  nb.bind (fun n =>
    if n < cfg.nbB ∧ tagFull s (.buffer key 1 n) ∧ (n ≠ b.b ∨ left ≠ 0) then
      let o := matOp s key { b with b := n }
      some (n, if cfg.kch ≤ c.c + 1 then { o with t := c.t + 1, c := 0 } else { o with c := c.c + 1 })
    else none)

/-- The chunk whose tile the decoder works on: the one in progress, or the one whose B buffer is next and full. -/
def decodeFor (s : State) (key : Nat) : Option Chunk :=
  let c := cellAt s key
  let cfg := cellCfg s key
  match c.busy with
  | some b => some b
  | none =>
    let b := if !cfg.manf then some (cfg.alt && c.t % 2 == 1, c.nextB % cfg.nbB)
      else match c.cmds.head? with
        | some x => if bits x.cmd.toNat 3 0 = 0 then some (bit x.cmd.toNat 4, bits x.cmd.toNat 10 8) else none
        | none => none
    match b with
    | none => none
    | some (zb, b) => if b < cfg.nbB ∧ tagFull s (.buffer key 1 b) then some { zb := zb, a := 0, b := b, cmd := none } else none

/-- What a tile's index entry and header say: as read before, else read and checked now, once the B buffer is full (R109, R386). -/
def codedOf (s : State) (o : MatOp) (zb : Bool) : Except State (CodedTab × State) :=
  match o.cell.coded with
  | some x => .ok (x, s)
  | none =>
    let ea := o.cfg.par 36 4 + 8 * o.tileNo
    match arraysAt s (4 * o.key) [(ea, 8)] with
    | (some (cause, a), s1) => .error (cellFault s1 o.key cause (BitVec.ofNat 64 a) [])
    | (none, s1) =>
      match codedAt s1 o (rdNat s1 ea 8) with
      | .error band => .error (malformed s1 o zb band 0xFF)
      | .ok x => .ok (x, updCell s1 o.key (fun c => { c with coded := some x }))

/-- The tile of the chunk that follows: its entry is read once its B buffer is full, and its first band decoded one band ahead (R386). What
fails here is met again when its chunk comes. None where there is nothing to do. -/
def aheadDecode (s : State) (key : Nat) (b : Chunk) : Option State :=
  match nextChunk s key b with
  | none => none
  | some (n, o) =>
    match (cellAt s key).ahead with
    | none =>
      let ea := o.cfg.par 36 4 + 8 * o.tileNo
      match arraysAt s (4 * key) [(ea, 8)] with
      | (some _, _) => none
      | (none, s1) =>
        match codedAt s1 o (rdNat s1 ea 8) with
        | .error _ => none
        | .ok x => some (updCell s1 key (fun c => { c with
            ahead := some { buf := n, tile := o.tileNo, tab := x, rows := [], lanes := [], ptr := 0 } }))
    | some a =>
      if !a.rows.isEmpty ∨ (matOp s key b).ready < o.cfg.kc ∨ a.buf ≠ n ∨ a.tile ≠ o.tileNo then none
      else if a.tab.stored then
        some (updCell s key (fun c => { c with ahead := some { a with rows := (range' 0 256).map (rawRow s o) } }))
      else
        match codedBand s a.tab.freqs o.baseB (a.tab.bounds.getD 0 0) (a.tab.bounds.getD 1 0) with
        | .error _ => none
        | .ok (rows, xs, w) => some (updCell s key (fun c => { c with ahead := some { a with rows := rows, lanes := xs, ptr := w } }))

/-- What the decoder has made ready of the tile of the chunk that now comes. -/
def Cell.adopt (c : Cell) (ahead : Option NextTile) (tile : Nat) : Cell :=
  match ahead with
  | none => c
  | some a =>
    if a.tile ≠ tile then c
    else { c with coded := some a.tab, rows := a.rows, lanes := a.lanes, ptr := a.ptr, step := if a.lanes.isEmpty then 0 else 128
                  band := if a.rows.isEmpty then 0 else 1 }

/-- MADDER_BAND_DECODE: the next band of a chunk's tile is decoded whole, checked and released; the first band may be
decoded before the operation fires, the others once it has. Beside them the decoder turns to the tile of the chunk that follows. -/
def bandDecode (s0 : State) (key : Nat) : State :=
  let next : Option State := match (cellAt s0 key).busy with
    | some b => if cellReady s0 key && (cellCfg s0 key).bcode then aheadDecode s0 key b else none
    | none => none
  match next with
  | some s => s
  | none =>
  match decodeFor s0 key with
  | none => s0
  | some b =>
    let o := matOp s0 key b
    let c := cellAt s0 key
    if !cellReady s0 key ∨ !o.cfg.bcode ∨ (0 < c.band ∧ c.busy.isNone) ∨ o.cfg.kc ≤ o.ready then s0
    else
      match codedOf s0 o b.zb with
      | .error s => s
      | .ok (x, s) =>
        let r : Except Nat (List (List Nat) × List Nat × Nat) :=
          if x.stored then .ok ((range' (256 * c.band) 256).map (rawRow s o), [], 0)
          else codedBand s x.freqs o.baseB (x.bounds.getD c.band 0) (x.bounds.getD (c.band + 1) 0)
        match r with
        | .error lane => malformed s o b.zb c.band lane
        | .ok (rows, xs, w) =>
          updCell s key (fun c => { c with
            rows := c.rows ++ rows, band := c.band + 1, lanes := xs, step := if x.stored then 0 else 128, ptr := w })

/-! ## The end of a chunk (R49, R382) -/

/-- A buffer has been read for an operation: its reuse count falls; at 0 its tag is empty, its count reloaded, and the next
buffer of the node becomes next. -/
def useBuffer (s : State) (key node b : Nat) : State :=
  let cfg := cellCfg s key
  let n := getD (cellAt s key).reuse (cfg.par (50 + node) 1) (8 * node + b) - 1
  if n ≠ 0 then updCell s key (fun c => { c with reuse := put c.reuse (8 * node + b) n })
  else
    let s1 := updCell s key (fun c =>
      let c1 := { c with reuse := del c.reuse (8 * node + b) }
      if node = 0 then (if c.nextA % cfg.nbA = b then { c1 with nextA := (b + 1) % cfg.nbA } else c1)
      else if c.nextB % cfg.nbB = b then { c1 with nextB := (b + 1) % cfg.nbB } else c1)
    setTag s1 (.buffer key node b) false

/-- A drain of a FULL accumulator begins. -/
def beginDrain (s : State) (key : Nat) (zb : Bool) (cmd : Option CellCmd) : State :=
  updCell s key (fun c => { c.setTag zb .draining with
    drain := some { zb := zb, tile := if zb then c.tileB else c.tileA, next := 0, bytes := 0, cmd := cmd } })

/-- With MAN = 0, the FULL tile with the lowest number drains, one at a time. -/
def nextDrain (s : State) (key : Nat) : State :=
  let c := cellAt s key
  if (cellCfg s key).man ∨ c.drain.isSome then s
  else if c.tagA = .full ∧ (c.tagB ≠ .full ∨ c.tileA ≤ c.tileB) then beginDrain s key false none
  else if c.tagB = .full then beginDrain s key true none
  else s

/-- MATRIX_CHUNK_COMPLETE: the chunk's remaining k-steps, once its symbols are there, and what follows its last one. -/
def chunkComplete (s : State) (key : Nat) : State :=
  match (cellAt s key).busy with
  | none => s
  | some b =>
    let o := matOp s key b
    if !cellReady s key ∨ o.ready < o.cfg.kc then s
    else
      let s1 := useBuffer (useBuffer (runSteps s key o.cfg.kc) key 0 b.a) key 1 b.b
      let last := o.cfg.kch ≤ o.c + 1
      let s2 := updCell s1 key (fun c =>
        let c1 := { c.undecoded with busy := none, k := 0 }.adopt c.ahead (o.tileNo + 1)
        if !last then { c1 with c := c.c + 1 }
        else
          let c2 := c1.setTag b.zb .full
          if b.zb then { c2 with c := 0, t := c.t + 1, tileB := c.t } else { c2 with c := 0, t := c.t + 1, tileA := c.t })
      nextDrain (doneCmd s2 key b.cmd) key

/-! ## Drains (R117, R387) -/

/-- out[i][j], as the low bits of an element of OFMT. -/
def drainVal (s : State) (cfg : CellCfg) (c : Cell) (d : Drain) (i j : Nat) : Nat :=
  let acc := (getD (if d.zb then c.zb else c.za) 0 (64 * i + j)).toNat
  let rs := (getD (if d.zb then c.rb else c.ra) 0 i).toNat
  let fv (x : Nat) : Fv := if cfg.ints then decodeFp fp56 (r56 (.ofInt (sgn 56 x))) else decodeFp fp56 x
  let at_ (lo : Nat) : Nat := rdNat s (cfg.par lo 4 + 4 * (d.tile * cfg.n + j)) 4
  if cfg.ints ∧ !cfg.scen ∧ !cfg.zpen ∧ !cfg.bien ∧ [7, 8, 0xC].contains cfg.ofmt then
    elemEnc cfg.ofmt cfg.rm cfg.pol (.ofInt (sgn 56 acc))
  else
    let step (on : Bool) (f : Fv → Fv) (x : Fv) : Fv := if on then decodeFp fp56 (r56 (f x)) else x
    let add (x y : Fv) : Fv := if x.isNan || y.isNan then .nan none else fvSum .rne [x, y]
    let x0 := fv acc
    let x1 := step cfg.zpen (fun x =>
      add x (decodeFp fp56 (r56 (mulC (.ofInt (sgn 32 (at_ 4))) (fv rs)))).negate) x0
    let x2 := step cfg.scen (fun x => mulC x (decodeFp fp32 (at_ 0))) x1
    let x3 := step cfg.bien (fun x => add x (decodeFp fp32 (at_ 8))) x2
    elemEnc cfg.ofmt cfg.rm cfg.pol (if x3.isNan then .nan none else x3)

/-- The tokens of a row into the fabric, without its stop: W2 by DRN. Where OATTR's W2 differs, the spec does not say which of the two
holds: consumers and filters go by OATTR (DESIGN CHOICE, log 55). -/
def rowTokens (s : State) (cfg : CellCfg) (c : Cell) (d : Drain) (i t : Nat) : Token :=
  let v (j : Nat) : Nat := if j < cfg.n then drainVal s cfg c d i j else 0
  if cfg.w2 then tokVal (v (2 * t) + 2 ^ (8 * elemSize cfg.ofmt) * v (2 * t + 1)) else tokVal (v t)

/-- The next token of a drain into the fabric; none after DONE. -/
def drainToken (s : State) (cfg : CellCfg) (c : Cell) (d : Drain) : Option Token :=
  let per := (if cfg.w2 then (cfg.n + 1) / 2 else cfg.n) + 1
  let i := d.next / per
  if i < cfg.m then
    some (if d.next % per + 1 = per then tokStop (if i + 1 = cfg.m then 1 else 0) else rowTokens s cfg c d i (d.next % per))
  else if d.next = cfg.m * per then some tokDone
  else none

/-- The next unit of a drain into memory: address, bytes, and the position at which a block overran; none after the last.
Dense: a row. ZREM: a block. The position counts the elements of the whole tile, row by row, as R116 counts those of a whole copy; for a
drain the spec does not say (DESIGN CHOICE, log 51). -/
def drainUnit (s : State) (cfg : CellCfg) (c : Cell) (d : Drain) : Option (W64 × List Byte × Option Nat) :=
  let tile := cfg.par 64 8 + d.tile * cfg.par 76 4
  let adr (a : Nat) : W64 := BitVec.ofNat 64 (if cfg.dtgt = 1 then a % 2 ^ 32 else a)
  if cfg.zrem then
    let e := c.mord.toNat
    let bn := max (bits e 47 32) 1
    let per := (cfg.n + bn - 1) / bn
    let i := d.next / per
    let j0 := d.next % per * bn
    if cfg.m ≤ i then none
    else
      let size := bmvSize bn (bits e 63 48) cfg.ofmt
      let xs := (range' j0 (min bn (cfg.n - j0))).map (drainVal s cfg c d i)
      let b := bmvBuild xs (bits e 63 48) cfg.ofmt (bit e 19) size
      some (adr (tile + d.next * size), b.1, b.2.map (fun x => i * cfg.n + j0 + x))
  else if cfg.m ≤ d.next then none
  else
    let vs := (range' 0 cfg.n).map (drainVal s cfg c d d.next)
    let bs := if cfg.ofmt = 8 then packetBytes [] 0 vs else vs.flatMap (fun v => bytesOfNat (elemSize cfg.ofmt) v)
    some (adr (tile + d.next * cfg.par 72 4), bs, none)

/-- The columns' arrays that a drain reads. -/
def drainArrays (cfg : CellCfg) (d : Drain) : List (Nat × Nat) :=
  let one (on : Bool) (lo : Nat) : List (Nat × Nat) := if on then [(cfg.par lo 4 + 4 * d.tile * cfg.n, 4 * cfg.n)] else []
  one cfg.zpen 4 ++ one cfg.scen 0 ++ one cfg.bien 8

/-- The end of a drain: the accumulator is zero and EMPTY, the period ends, the command completes (R335, R355, R382). -/
def endDrain (s : State) (key : Nat) (d : Drain) : State :=
  let cfg := cellCfg s key
  let s1 := updCell s key (fun c =>
    let c1 := { c.setTag d.zb .empty with drain := none, point := none }
    if d.zb then { c1 with zb := [], rb := [] } else { c1 with za := [], ra := [] })
  let s2 := updElem s1 (4 * key) (fun e => { e with
    wrote := cfg.m * cfg.n, bytes := d.bytes, ended := true, done := e.done || cfg.dtgt == 0 })
  nextDrain (doneCmd s2 key d.cmd) key

/-- A fault of the AGT by which a drain writes: its write side, at the element with which the unit begins: its column, its row, its tile
(R398; DESIGN CHOICE, log 51). -/
def drainFault (s : State) (key : Nat) (cfg : CellCfg) (d : Drain) (f : FaultInfo) : State :=
  let bn := if cfg.zrem then max (bits (cellAt s key).mord.toNat 47 32) 1 else cfg.n
  let per := (cfg.n + bn - 1) / max bn 1
  let s1 := updCell (updElem (reqDone s [4096 + 128 + 4 * key]) (4 * key) (fun e => { e with faulted := some none })) key
    (fun c => { c with stopped := true })
  raiseRec s1 (key / 2304) { elemRec s (4 * key) f.cause f.addr (some 0) (.elem (4 * key)) [] with
    port := some 1, pos := some (d.next % max per 1 * bn, d.next / max per 1, d.tile % 2 ^ 16) }

/-- DRAIN_COMPLETE: a drain goes on, and after its last token or write ends. -/
def drainStep (s0 : State) (key : Nat) : State :=
  let c := cellAt s0 key
  match c.drain with
  | none => s0
  | some d =>
    if !cellReady s0 key ∨ (elemAt s0 (4 * key)).ended then s0
    else
      let cfg := cellCfg s0 key
      let go (s : State) (n : Nat) : State :=
        updCell s key (fun c => { c with drain := some { d with next := d.next + 1, bytes := d.bytes + n }, point := none })
      match arraysAt s0 (4 * key) (drainArrays cfg d) with
      | (some (cause, a), s) => cellFault s key cause (BitVec.ofNat 64 a) []
      | (none, s) =>
        if cfg.dtgt = 0 then
          match drainToken s cfg c d with
          | none => endDrain s key d
          | some t =>
            match emit (4 * key) [(0, t)] s with
            | .ok _ s1 => go s1 0
            | .error _ _ => s0
        else
          match drainUnit s cfg c d with
          | none => endDrain s key d
          | some (a, bs, past) =>
            let u := elemAgt (4 * key)
            match agtStall s u (cfg.dtgt == 1) a bs.length with
            | some r => r.getD s0
            | none =>
            match agtTargets s u (cfg.dtgt == 1) (elemSuper s (4 * key)) .wr a bs.length with
            | .error f => if cfg.dtgt = 2 then drainFault s key cfg d f else cellFault s key f.cause f.addr []
            | .ok xs =>
              let gate := bit (dev s 0x100900) 0 && anyPeer xs
              if anyHeld s xs || (anyPeer xs && !injectRoom s 3) then s0
              else if gate && c.point.isNone then updCell s key (fun c => { c with point := some (s.host.points + 1) })
              else if gate && decide (s.host.pointsDone < c.point.getD 0) then s0
              else
                let s1 := updElem (go (agtWrite u (agtTouch s u (cfg.dtgt == 1) a bs.length) xs bs false) bs.length) (4 * key)
                  (fun e => { e with away := e.away ++ awayLines xs })
                match past with
                | none => s1
                | some p =>
                  let s2 := updCell (updElem s1 (4 * key) (fun e => { e with faulted := some none })) key
                    (fun c => { c with stopped := true })
                  raiseRec s2 (key / 2304) (elemRec s1 (4 * key) cBMV a (some p) (.elem (4 * key)) [])

/-! ## Commands and discards (R388, R389) -/

/-- Zeroes an accumulator, with what works on it: it is EMPTY, SAT clear, and c is 0 unless it counts the chunks of the other, which is
LIVE (DEDUCED, log 34). Buffers keep their tags and counts. -/
def discardAcc (s : State) (key : Nat) (zb : Bool) : State :=
  updCell s key (fun c =>
    let c1 := c.setTag zb .empty
    let c2 := { c1 with
      c := if c.tag (!zb) = AccTag.live then c.c else 0
      busy := match c.busy with
        | some b => if b.zb = zb then none else some b
        | none => none
      drain := match c.drain with
        | some d => if d.zb = zb then none else some d
        | none => none }
    let c3 := if c2.busy.isNone then { c2.undecoded with k := 0 } else c2
    if zb then { c3 with zb := [], rb := [], satB := false } else { c3 with za := [], ra := [], satA := false })

/-- What DISC does. -/
def discard (s : State) (key : Nat) : State := discardAcc (discardAcc s key false) key true

/-- The command at the head of a cell's queue, if it has an operation code: its accumulator and buffers. A cell takes commands whether it
fires or not, but not while it is frozen (R389). -/
def headCmd (s : State) (key opc : Nat) : Option (CellCmd × Bool × Nat × Nat) :=
  match (cellAt s key).cmds with
  | [] => none
  | x :: _ =>
    let w := x.cmd.toNat
    if !(elemAt s (4 * key)).frozen && (elemAt s (4 * key)).reading.isNone && bits w 3 0 == opc then some (x, bit w 4, bits w 7 5, bits w 10 8) else none

/-- The head command has been taken. -/
def popCmd (s : State) (key : Nat) : State := updCell s key (fun c => { c with cmds := c.cmds.drop 1 })

/-- Whether an earlier command still works, on an accumulator if one is given: none does at a cell that has stopped (R386). -/
def cmdWorks (s : State) (key : Nat) (zb : Option Bool) : Bool :=
  let c := cellAt s key
  let on (z : Bool) : Bool := zb.all (fun y => y == z)
  !c.stopped && (c.busy.any (fun b => on b.zb && b.cmd.isSome) || c.drain.any (fun d => on d.zb && d.cmd.isSome))

/-- MXOP_MMA. A buffer beyond the node's division is refused. -/
def mxopMma (s : State) (key : Nat) : State :=
  match headCmd s key 0 with
  | none => s
  | some (x, zb, a, b) =>
    let cfg := cellCfg s key
    if !cfg.manf ∨ cfg.nbA ≤ a ∨ cfg.nbB ≤ b then cellRefuse (popCmd s key) key cCFGBAD
    else if !cellReady s key then s
    else
      match beginChunk s key { zb := zb, a := a, b := b, cmd := some x } with
      | none => s
      | some s1 => popCmd s1 key

/-- MXOP_DRAIN. -/
def mxopDrain (s : State) (key : Nat) : State :=
  match headCmd s key 1 with
  | none => s
  | some (x, zb, _, _) =>
    if cmdWorks s key (some zb) then s
    else if !(cellCfg s key).man ∨ (cellAt s key).tag zb ≠ .full then cellRefuse (popCmd s key) key cCFGBAD
    else if (cellAt s key).drain.isSome then s
    else beginDrain (popCmd s key) key zb (some x)

/-- MXOP_ZERO, after every earlier command, each of which counts by c (DEDUCED, log 34). -/
def mxopZero (s : State) (key : Nat) : State :=
  match headCmd s key 2 with
  | none => s
  | some (x, zb, _, _) =>
    if cmdWorks s key none then s else doneCmd (discardAcc (popCmd s key) key zb) key (some x)

end Sys2Proof.Machine
end

