-- ==== Sys2Proof/Machine/Graph.lean ====
section
/-! DEFINITION. Graphs: configuration words, parameter blocks, streams, start, freeze, readout and thaw (spec/11 R336, R337,
spec/12 R346-R356, R376, R378-R380, R388, R390-R393, spec/04 R114-R116). -/

namespace Sys2Proof.Machine
open Sys2Proof

/-! ## Fields by kind of site (Tables 12-3, 12-8, R347, R378) -/

/-- Whether a kind of site has a field. -/
def fieldOf (kind f : Nat) : Bool :=
  let router := f == 0x3C || f == 0x3D
  let common := decide (f ≤ 0x0F) || [0x30, 0x31, 0x32, 0x38, 0x39].contains f || router
  match kind with
  | 1 => common || [0x10, 0x11, 0x12].contains f
  | 2 => common || f == 0x12
  | 3 => common
  | 4 => common || f == 0x12
  | 0xA => common || (decide (0x10 ≤ f) && decide (f ≤ 0x18))
  | 0xB => common || [0x10, 0x11, 0x12].contains f
  | 0xC => common || [0x10, 0x11, 0x12, 0x13].contains f
  | 0xD => router
  | 0xE => router || [0x00, 0x10, 0x11, 0x12].contains f
  | 0xF => false
  | 0 => false
  | _ => common || [0x10, 0x11].contains f

/-- The value bits of a field that are 0. -/
def zeroBits (kind f : Nat) : Nat :=
  let keep (n : Nat) : Nat := 2 ^ 14 - 2 ^ n
  if kind = 0xE then
    (match f with
     | 0 => keep 2
     | 0x10 => keep 4
     | 0x11 => keep 13
     | 0x12 => keep 12
     | 0x3C => keep 9
     | _ => 0)
  else
    match f with
    | 0 => keep 2
    | 1 => 2 ^ 13 + (if kind = 0xA then 0 else 2 ^ 12)
    | 2 => keep 12
    | 3 => keep 12
    | 4 => keep 12
    | 5 => keep 12
    | 0xE => keep 4
    | 0xF => keep 4
    | 0x30 => keep 6
    | 0x3C => keep 9
    | 0x12 => if kind = 0xA then keep 12 else if kind = 0xB then keep 9 else if kind = 0xC then keep 8 else keep 1
    | 0x15 => keep 13
    | 0x16 => keep 6
    | 0x17 => keep 12
    | 0x18 => keep 4
    | _ => 0

/-- The HI field of a LO/HI pair (R348). -/
def hiField (f : Nat) : Bool := [0x11, 0x32, 0x39].contains f

/-! ## Channels (R353) -/

/-- Whether an output is in use. -/
def outUsed (s : State) (k o : Nat) : Bool := bits (fld s k (6 + o)) 6 5 != 3

/-- The site where a destination lies. -/
def destSite (s : State) : Dest → Option Nat
  | .elem k _ => some (k / 4)
  | .endp k => some (k / 16)
  | .circ c => (circuitAt s c).src

/-- The links from a column to another along a row, then from a row to another; fuel counts them. -/
def pathLinks : Nat → Nat → Nat → List (Nat × Nat)
  | 0, _, _ => []
  | f + 1, a, b =>
    let (x, y) := (a % 48, a / 48)
    let n := if x < b % 48 then a + 1 else if b % 48 < x then a - 1 else if y < b / 48 then a + 48 else if b / 48 < y then a - 48 else a
    if n = a then [] else (a, n) :: pathLinks f n b

/-- The directed links of channels from a site of a die, by virtual channel. -/
def linksTo (s : State) (site vc : Nat) (ds : List Dest) : List (Nat × Nat × Nat) :=
  ds.flatMap (fun d =>
    match destSite s d with
    | none => []
    | some t =>
      if t / 2304 ≠ site / 2304 then []
      else (pathLinks 96 (site % 2304) (t % 2304)).map (fun l => (2304 * (site / 2304) + l.1, l.2, vc)))

def outLinks (s : State) (k o : Nat) : List (Nat × Nat × Nat) := linksTo s (k / 4) (bits (fld s k (6 + o)) 0 0) (outDests s k o)

def endpLinks (s : State) (p : Nat) : List (Nat × Nat × Nat) := linksTo s (p / 16) (bits (endpAt s p).cfg 4 4) (endpDests s p)

/-- Whether a channel of some links, an element's output or an endpoint's, would share a link's virtual channel with another channel. -/
def linkClash (s : State) (mine : List (Nat × Nat × Nat)) (out : Option (Nat × Nat)) (endp : Option Nat) : Bool :=
  !mine.isEmpty &&
  (s.fab.elems.any (fun e => (range' 0 4).any (fun p =>
      some (e.1, p) != out && outUsed s e.1 p && (outLinks s e.1 p).any mine.contains)) ||
   s.fab.endps.any (fun e => some e.1 != endp && bit e.2.cfg 0 && bit e.2.cfg 1 && (endpLinks s e.1).any mine.contains))

def linkShared (s : State) (k o : Nat) : Bool := linkClash s (outLinks s k o) (some (k, o)) none

/-- The value format of a producer, where its configuration has one (R116). -/
def prodFmt (s : State) (k : Nat) : Option Nat :=
  let e := elemAt s k
  match kindAt s (k / 4) with
  | 5 => some (bits (blk e 5 1) 7 4)
  | 7 => some (bits (blk e 8 1) 3 0)
  | 8 => some (bits (blk e 5 1) 7 4)
  | 9 => some (bits (blk e 13 1) 7 4)
  | 0xA => some (bits (fld s k 0x17) 6 3)
  | 0xB => some (mopFmt e)
  | _ => none

/-- Whether an output's filter is permitted on it; a format whose parameter block is not yet taken is compared when it
is (R116). -/
def mordOutOk (s : State) (k o : Nat) : Bool :=
  let a := fld s k (6 + o)
  let kind := kindAt s (k / 4)
  let known := kind == 0xA || !(elemAt s k).block.isEmpty || (prodFmt s k).isNone
  let e := mordant s (k / 4) (bits a 0 0) (bits a 4 1)
  let fmt := if bits a 6 5 ≠ 2 then none else if known then prodFmt s k else some (bits e 7 4)
  !outUsed s k o || mordTokenOk e fmt (bit a 7)

/-- Whether a destination is a combiner whose block, once taken, names a format of 32 bits: W2 does not suit it (R96, R365). -/
def w2Off (s : State) : Dest → Bool
  | .elem j _ =>
    let e := elemAt s j
    kindAt s (j / 4) == 8 && !e.block.isEmpty && (elemSize (bits (blk e 5 1) 3 0) == 4 || elemSize (bits (blk e 5 1) 7 4) == 4)
  | _ => false

/-- Whether an output's containers suit its format and its destinations: W2 does not hold values of 32 bits; a format whose parameter block
is not yet taken is compared when it is (R96). -/
def w2Ok (s : State) (k o : Nat) : Bool :=
  let a := fld s k (6 + o)
  let known := kindAt s (k / 4) == 0xA || !(elemAt s k).block.isEmpty
  !(outUsed s k o && bits a 6 5 == 2 && bit a 7 &&
    ((known && (prodFmt s k == some 0 || prodFmt s k == some 0xC)) || (outDests s k o).any (w2Off s)))

/-- The checks of an output in use after a word of it: the circuit it names, its links, its filter, its containers. -/
def outBad (s : State) (k o : Nat) : Bool :=
  let a := fld s k (6 + o)
  outUsed s k o &&
  ((bit a 8 && (match (circuitAt s (bits (fld s k (2 + o)) 9 0)).src with
      | some t => t / 2304 != k / 4 / 2304
      | none => true)) ||
   linkShared s k o || !mordOutOk s k o || !w2Ok s k o)

/-! ## The router's tables (R356) -/

/-- Whether a resident channel selects an entry of a token table of a site. -/
def entrySelected (s : State) (site table entry : Nat) : Bool :=
  (range' (4 * site) 4).any (fun k => (range' 0 4).any (fun o =>
    let a := fld s k (6 + o)
    (look s.fab.elems k).isSome && outUsed s k o && bits a 0 0 == table && bits a 4 1 == entry)) ||
  (range' (16 * site) 16).any (fun p =>
    let c := (endpAt s p).cfg
    bit c 0 && bit c 1 && bits c 4 4 == table && bits c 8 5 == entry)

/-- A word of MDATA. -/
def mdataWord (s : State) (site v : Nat) : Except Nat State :=
  let m := getD s.fab.msel 0 site
  let entry := bits m 3 0
  let table := bits m 5 4
  let chunk := bits m 8 6
  let key := (3 * site + table) * 16 + entry
  let old := (getD s.fab.mordant 0 key).toNat
  if chunk = 4 ∧ 256 ≤ v then .error cCFGBAD
  else if entry = 0 then .ok s
  else if table < 2 ∧ entrySelected s site table entry then .error cCFGBAD
  else
    let lo := 14 * chunk
    let n := if chunk = 4 then 8 else 14
    let new := old - bits old (lo + n - 1) lo * 2 ^ lo + v * 2 ^ lo
    .ok { s with fab := { s.fab with mordant := setD s.fab.mordant 0 key (BitVec.ofNat 64 new) } }

/-! ## Matrix-cell words (R44, R379, R388) -/

/-- The operand formats. -/
def fmtA (f : Nat) : Bool := [1, 2, 3, 4, 5, 6, 7, 8].contains f
def fmtB (f : Nat) : Bool := fmtA f || [9, 0xA, 0xB].contains f

/-- Whether a value of FMT is permitted. -/
def fmtOk (v : Nat) : Bool :=
  fmtA (bits v 3 0) && fmtB (bits v 7 4) && (!bit v 8 || [8, 9, 0xA, 0xB].contains (bits v 7 4))

/-- Whether a value of DRN is permitted (R117, R379). -/
def drnOk (v : Nat) : Bool :=
  let t := bits v 1 0
  let f := bits v 6 3
  t != 3 && [0, 1, 2, 3, 4, 7, 8, 0xC].contains f && !(bit v 11 && (t == 0 || f == 8)) &&
  !(t == 0 && (f == 8 || (bit v 7 && (f == 0 || f == 0xC))))

/-- The entry that DMORD names, if a drain may apply it (R379). -/
def drainEntry (s : State) (site : Nat) : Option W64 :=
  let e := mordant s site 2 (bits (fld s (4 * site) 0x18) 3 0)
  let f := bits (fld s (4 * site) 0x17) 6 3
  if bits e 14 12 ≤ 4 ∧ bits e 3 0 = 2 ∧ bits e 7 4 = f ∧ bits e 11 8 = f ∧ bmvFmt f ∧ 0 < bits e 47 32 then some (BitVec.ofNat 64 e) else none

/-- Whether an accumulator of a cell is LIVE, FULL or draining. -/
def cellLive (c : Cell) : Bool := c.tagA != .empty || c.tagB != .empty

/-- Whether K suits the operands (R379). -/
def kcOk (c : CellCfg) : Bool :=
  c.kch == 1 || ((!(c.fa == 6 || c.fb == 6) || c.kc % 32 == 0) && (c.fb != 0xB || c.kc % 64 == 0))

/-- Whether a block's counts of scales fail a configuration's depth (R89). -/
def scalesBad (c : CellCfg) : Bool :=
  let kt := c.kc * c.kch
  (c.fa == 6 && c.par 44 2 != (kt + 31) / 32) || (c.fb == 6 && c.par 46 2 != (kt + 31) / 32) || (c.fb == 0xB && c.par 48 2 != (kt + 63) / 64)

/-- Whether a drain of INT4 into memory would not keep to packets (R87, R117). -/
def drainOff (c : CellCfg) : Bool :=
  c.dtgt != 0 && c.ofmt == 8 && (c.par 64 8 % 32 != 0 || c.par 72 4 % 32 != 0 || c.par 76 4 % 32 != 0)

/-- What a word of a cell's depth or formats meets once the block is taken. -/
def depthBad (c : CellCfg) : Option Nat := if !kcOk c then some cCFGBAD else if scalesBad c then some cSCALE else none

/-- What a word does to a matrix cell beside its field: the state before the word, after it, the field. -/
def cellWord (s0 s : State) (site f v : Nat) : Except Nat State :=
  let old (x : Nat) : Nat := fld s0 (4 * site) x
  let taken := !(elemAt s (4 * site)).block.isEmpty
  let depth : Except Nat State := match (if taken then depthBad (cellCfg s site) else none) with
    | some c => .error c
    | none => .ok s
  match f with
  | 0x13 => depth
  | 0x14 => depth
  | 0x15 => if !fmtOk v then .error cCFGBAD else depth
  | 0x16 =>
    let s1 := if bits v 1 0 = bits (old 0x16) 1 0 then s else clearNode s site 0
    .ok (if bits v 3 2 = bits (old 0x16) 3 2 then s1 else clearNode s1 site 1)
  | 0x17 =>
    if !drnOk v ∨ !mordOutOk s (4 * site) 0 ∨ !w2Ok s (4 * site) 0 then .error cCFGBAD
    else if taken && drainOff (cellCfg s site) then .error cDESC
    else if bit v 11 then
      (match drainEntry s site with
       | some e => .ok (updCell s site (fun c => { c with mord := e }))
       | none => .error cCFGBAD)
    else .ok s
  | 0x18 =>
    if bit (fld s (4 * site) 0x17) 11 then
      (match drainEntry s site with
       | some e => .ok (updCell s site (fun c => { c with mord := e }))
       | none => .error cCFGBAD)
    else .ok s
  | _ => .ok s

/-! ## Parameter blocks (R348, R358-R380) -/

/-- The bytes of a kind's block. -/
def blockLen (kind : Nat) : Nat :=
  match kind with
  | 1 => 32
  | 6 => 32
  | 9 => 272
  | 0xA => 128
  | 0xB => 48
  | 0xC => 272
  | _ => 16

/-- The value formats of stream units. -/
def unitFmt (f : Nat) : Bool := [0, 1, 2, 3, 4, 7, 0xC].contains f

/-- Whether an IOP entry is well formed (R376). -/
def iopEntryOk (b : List Byte) (e : Nat) : Bool :=
  let g (lo n : Nat) : Nat := natOfBytes ((b.drop (16 + 16 * e + lo)).take n)
  decide (g 0 2 < 1024) && decide (g 2 1 ≤ 1) && decide (g 6 1 < 4) && (g 7 1 == 0xFF || decide (g 7 1 < 4)) && g 11 5 == 0

/-- The checks of a block of a kind, as its bytes stand: a reserved bit, or a value that is not permitted. -/
def blockBad (s : State) (k : Nat) (b : List Byte) : Option Nat :=
  let g (lo n : Nat) : Nat := natOfBytes ((b.drop lo).take n)
  let bad (x : Bool) : Option Nat := if x then some cCFGBAD else none
  match kindAt s (k / 4) with
  | 1 => bad (bits (g 16 1) 7 3 != 0 || g 17 15 != 0 || bits (g 16 1) 1 0 == 3 || (!bit (g 16 1) 2 && decide (7 < idep s k + 1)))
  | 5 => bad (bits (g 4 1) 7 3 != 0 || bits (g 4 1) 1 0 == 3 || !unitFmt (bits (g 5 1) 3 0) || !unitFmt (bits (g 5 1) 7 4) || g 6 10 != 0)
  | 6 => bad (decide (4 < bits (g 18 1) 2 0) || bits (g 18 1) 7 4 != 0 || bits (g 19 1) 7 4 != 0 || !unitFmt (bits (g 19 1) 3 0) ||
      g 20 12 != 0)
  | 7 => bad (bits (g 8 1) 7 4 != 0 || !unitFmt (bits (g 8 1) 3 0) || g 9 7 != 0)
  | 8 => bad (bits (g 4 1) 7 5 != 0 || decide (6 < bits (g 4 1) 3 0) || !unitFmt (bits (g 5 1) 3 0) || !unitFmt (bits (g 5 1) 7 4) ||
      g 6 10 != 0)
  | 9 => bad (g 12 1 == 0 || decide (16 < g 12 1) || !unitFmt (bits (g 13 1) 3 0) || !unitFmt (bits (g 13 1) 7 4) ||
      bits (g 14 1) 7 1 != 0 || g 15 1 != 0 || (g 0 4 == 0 && g 4 4 != 0) || (g 4 4 == 0 && g 8 4 != 0) ||
      (range' 0 (min (g 12 1) 16)).any (fun l => decide (16 ≤ g (16 + 16 * l) 1)))
  | 0xA =>
    let c := { cellCfg s (k / 4) with blk := b }
    let size (n : Nat) : Nat := 0x8000 / n
    if g 60 4 ≠ 0 ∨ g 80 48 ≠ 0 then some cCFGBAD
    else if scalesBad c then some cSCALE
    else if (c.scen ∧ g 0 4 = 0xFFFFFFFF) ∨ (c.zpen ∧ g 4 4 = 0xFFFFFFFF) ∨ (c.bien ∧ g 8 4 = 0xFFFFFFFF) then some cCFGBAD
    else if size c.nbA < (if c.bmen then c.maskAt + c.maskBytes else c.bytesA) ∨ (!c.bcode ∧ size c.nbB < c.bytesB) then
      some cCFGBAD
    else if g 50 1 = 0 ∨ g 51 1 = 0 ∨ !kcOk c then some cCFGBAD
    else if drainOff c then some cDESC
    else none
  | 0xB =>
    let a := g 0 4
    bad (bits (g 4 1) 7 4 != 0 || ! [0, 1, 2, 3, 4, 7, 0xC, 0xD].contains (g 4 1) || bits (g 8 1) 7 2 != 0 || g 9 7 != 0 ||
      siteKey a != k / 4 || sPlace s a != .bank ||
      layoutBad (BitVec.ofNat 256 (g 16 32)) (g 4 1))
  | 0xC => bad (decide (16 < g 0 2) || g 2 14 != 0 || (range' 0 (min (g 0 2) 16)).any (fun e => !iopEntryOk b e) ||
      !((iopEnds b).Nodup : Bool) || (iopEnds b).any (fun e =>
        match (if e.2 then (circuitAt s e.1).dst else (circuitAt s e.1).src) with
        | some t => t != k / 4
        | none => false))
  | _ => none

/-- Reads bytes of S-space with a privilege. -/
def blockRead (s : State) (a n : Nat) (super : Bool) : Except Nat (List Byte × State) :=
  if 2 ^ 32 < a + n ∨ (linePieces (BitVec.ofNat 64 a) n).any (fun p => sPlace s p.1.toNat = .absent) then .error cADDR
  else if !super && (linePieces (BitVec.ofNat 64 a) n).any (fun p => (srgn s p.1.toNat).2) then .error cPROT
  else
    let s1 := (linePieces (BitVec.ofNat 64 a) n).foldl (fun s p => (homeRead (portTurn s true a) p.1.toNat p.2).2) s
    if poisoned s1 a n then .error cECC else .ok (rdBytes s1 a n, s1)

/-- Reads a parameter block, which must lie in banks (R348). -/
def paramBytes (s : State) (a n : Nat) (super : Bool) : Except Nat (List Byte × State) :=
  (blockRead s a n super).bind (fun r =>
    if (linePieces (BitVec.ofNat 64 a) n).any (fun p => sPlace s p.1.toNat ≠ .bank) then .error cCFGBAD else .ok r)

/-- A table that a cell copies from an array, which may be absent: every entry of an absent codebook is then +0, of which the spec says
nothing (DESIGN CHOICE, log 50). -/
def tableRead (s : State) (a n : Nat) (super : Bool) : Except Nat (List Byte × State) :=
  if a = 0xFFFFFFFF then .ok ([], s) else blockRead s a n super

/-- A site takes a block. -/
def takeBlock (s : State) (k : Nat) (b : List Byte) (super : Bool) : Except Nat State :=
  let site := k / 4
  match blockBad s k b with
  | some c => .error c
  | none =>
    let s1 := updElem s k (fun e => { e with block := b, reading := none })
    let pairs : Bool := w2Off s1 (.elem k 0) && (range' 0 2).any (isW2 s1 k)
    if !(range' 0 4).all (fun o => mordOutOk s1 k o && w2Ok s1 k o) ∨ pairs then .error cCFGBAD
    else
      match kindAt s site with
      | 0xA =>
        let g (lo n : Nat) : Nat := natOfBytes ((b.drop lo).take n)
        (tableRead s1 (g 24 4) 32 super).bind (fun x => (tableRead x.2 (g 28 4) 1024 super).bind (fun y =>
          (tableRead y.2 (g 32 4) 128 super).map (fun z => updCell (updElem z.2 k (fun e => { e with faulted := none })) site (fun c =>
            { c with cb := x.1, pt := y.1, ft := z.1, stopped := false, reuse := [] }))))
      | 0xC =>
        let old := s1.fab.circuits.foldl (fun s c => updCircuit s c.1 (fun x =>
          { x with src := if x.src = some site then none else x.src, dst := if x.dst = some site then none else x.dst })) s1
        .ok ((iopEnds b).foldl (fun s e => updCircuit s e.1 (fun x =>
          if e.2 then { x with dst := some site } else { x with src := some site })) old)
      | _ => .ok s1

/-! ## Initial tokens (R354) -/

/-- The tokens of an initial-token block. -/
def initTokens (b : List Byte) : Option (List (Nat × Token)) :=
  let g (lo n : Nat) : Nat := natOfBytes ((b.drop lo).take n)
  let tok (i : Nat) : Nat × Token := (g 0 1, { tag := BitVec.ofNat 4 (g (2 + i) 1), data := BitVec.ofNat 32 (g (8 + 4 * i) 4) })
  let ok (i : Nat) : Bool := g (2 + i) 1 < 3 || (8 ≤ g (2 + i) 1 && g (2 + i) 1 ≤ 15)
  let n := g 1 1
  if n = 0 ∨ 2 < n ∨ 4 ≤ g 0 1 ∨ !(range' 0 n).all ok then none else some ((range' 0 n).map tok)

/-- Initial tokens are placed in their outputs' destination buffers; a stop among them counts as one that is not yet taken (R100). -/
def placeInit (s : State) (k : Nat) (ts : List (Nat × Token)) : State :=
  ts.foldl (fun s t =>
    let ds := outDests s k t.1
    deliver (if isStop t.2.tag && !ds.isEmpty then
        updElem s k (fun e => { e with stops := put e.stops t.1 (getD e.stops 0 t.1 + 1) }) else s) ds t.2) s

/-! ## Configuration words (R347, R350-R352) -/

/-- A fault of a configuration command: its cause, and the address it names. -/
structure CfgFault where
  cause : Nat
  addr : W64

/-- Whether a context has emitted or consumed its DONE and waits for nothing but a new start token (R350); an IOP that is no JOIN has no
stream of its own. -/
def elemRest (s : State) (k : Nat) : Bool :=
  let e := elemAt s k
  let still : Bool := match e.run with
    | .idle => true
    | .scn o f d => !o && f.isNone && d
    | .memop _ _ _ _ b _ _ => !b
    | _ => false
  (kindAt s (k / 4) == 0xC && bits (fld s k 0x12) 7 5 == 0) ||
    (e.done && !e.ended && e.outq.isEmpty && (e.waiting || (still && e.last.isEmpty && e.ins.all (fun i => i.2.isEmpty))))

/-- Whether a graph is idle: it has not started, or every context is at rest, and every cell empty with nothing to do, having emitted its
DONE where its drain emits one (DEDUCED, log 34: a cell that drains into memory has none). -/
def graphIdle (s : State) (base : Nat) (g : Graph) : Bool :=
  !g.started ||
  (s.fab.elems.all (fun e =>
      (graphAt s (e.1 / 4)).map (·.1) != some base || !bit (fld s e.1 1) 0 ||
      (if kindAt s (e.1 / 4) = 0xA then
        let c := cellAt s (e.1 / 4)
        !cellLive c && c.busy.isNone && c.drain.isNone && c.cmds.isEmpty && !e.2.ended &&
          (e.2.done || bits (fld s e.1 0x17) 1 0 != 0)
       else elemRest s e.1)))

/-- A word's effect on the fields of its context, and what the field adds. -/
def setField (s : State) (cid : Nat) (cmd : CfgCmd) (k f v : Nat) : Except Nat State :=
  let site := k / 4
  let kind := kindAt s site
  let addr := 2 ^ 18 * v + 16 * getD (elemAt s k).fields 0 (f - 1)
  let s1 := updElem s k (fun e => { e with fields := put e.fields f v, addrs := if hiField f then put e.addrs f addr else e.addrs })
  let taken := !(elemAt s k).block.isEmpty
  let bad : Except Nat State := .error cCFGBAD
  if f = 1 then
    let e := elemAt s1 k
    if 4 < bits v 11 9 ∨ (bit v 1 ∧ ! [1, 2, 3].contains kind) ∨ bits v 4 2 = 7 then bad
    else if kind = 4 ∧ bits v 4 2 = 6 then bad
    else if kind = 1 ∧ taken ∧ !bit (blk e 16 1) 2 ∧ bits v 4 2 = 6 then bad
    else if kind = 0xA ∧ bit v 12 then .ok (discard s1 site)
    else .ok s1
  else if 2 ≤ f ∧ f ≤ 0xD then (if outBad s1 k ((f - 2) % 4) then bad else .ok s1)
  else if f = 0xE then
    let start (e : Elem) : Elem :=
      if !bit v 0 then { e with waiting := false }
      else if e.held then { e with waiting := false, held := false }
      else { e with waiting := true }
    .ok (updElem s1 k start)
  else if f = 0x11 then .ok (updElem s1 k (fun e => { e with reading := some { cid := cid, cmd := cmd } }))
  else if f = 0x12 ∧ kind = 0xB then
    if 4 < bits v 2 0 ∨ 12 < bits v 7 4 ∨
        (taken ∧ layoutBad (BitVec.ofNat 256 (blk (elemAt s k) 16 32)) (mopFmt (elemAt s k))) then bad
    else .ok s1
  else if f = 0x12 ∧ kind = 0xC then (if bits v 7 5 = 0 ∨ bits v 1 0 = 3 then bad else .ok s1)
  else if f = 0x39 then
    match blockRead s1 addr 16 cmd.super with
    | .error c => .error c
    | .ok (b, s2) =>
      match initTokens b with
      | none => bad
      | some ts =>
        let o := natOfBytes (b.take 1)
        if !outUsed s2 k o ∨ (look (elemAt s2 k).fields (2 + o)).isNone then bad
        else .ok (placeInit (updElem s2 k (fun e => { e with init := e.init ++ ts })) k ts)
  else if kind = 0xA then cellWord s s1 site f v
  else .ok s1

/-- Whether an output endpoint may select its filter: NONE; CONV on values in W1 containers. -/
def endpFilterOk (s : State) (site cfg : Nat) : Bool :=
  let e := mordant s site (bits cfg 4 4) (bits cfg 8 5)
  mordTokenOk e (if bits cfg 3 2 = 2 then some (bits e 7 4) else none) (bits cfg 3 2 == 3)

/-- A word of a task core's endpoints (R378). An output's filter is held against its kind, and with its format when it is bound (R116); its
containers, against what takes them (R96). -/
def endpWord (s : State) (site f v : Nat) : Except Nat State :=
  let key := 16 * site + getD s.fab.esel 0 site
  -- an output endpoint's channel keeps to R353, as an element's
  let endpSet (g : Endp → Endp) : Except Nat State :=
    let s1 := updEndp s key g
    if (endpAt s key).bound.isSome then .error cCFGLIVE
    else if bit (endpAt s1 key).cfg 0 && bit (endpAt s1 key).cfg 1 && (linkClash s1 (endpLinks s1 key) none (some key) ||
        !endpFilterOk s1 site (endpAt s1 key).cfg || (bits (endpAt s1 key).cfg 3 2 == 3 && (endpDests s1 key).any (w2Off s1))) then .error cCFGBAD
    else .ok s1
  match f with
  | 0x10 => .ok { s with fab := { s.fab with esel := setD s.fab.esel 0 site v } }
  | 0x11 => endpSet (fun e => { e with cfg := v })
  | 0x12 => endpSet (fun e => { e with dest := v })
  | _ => .ok s

/-- The site that a word of a graph addresses, where it lies in the graph (R347). -/
def wordSite (g : Graph) (w : Nat) : Option Nat :=
  let dr := bits w 31 26
  let dc := bits w 25 20
  if 48 ≤ g.col + dc ∨ 48 ≤ g.row + dr ∨ g.w ≤ dc ∨ g.h ≤ dr then none
  else some (2304 * g.die + 48 * (g.row + dr) + (g.col + dc))

/-- The context that a word of a site goes to (R351). -/
def wordCtx (s : State) (site : Nat) : Nat := 4 * site + getD s.fab.ctxSel 0 site

/-- A configuration word applied. A faulting word is not applied. A context of a frozen graph, though first addressed now, does not fire
before its thaw (R390). -/
def applyWord (s : State) (cid : Nat) (cmd : CfgCmd) (g : Graph) (w : Nat) : Except Nat State :=
  let f := bits w 19 14
  let v := bits w 13 0
  match wordSite g w with
  | none => .error cCFGBAD
  | some site =>
    let kind := kindAt s site
    let k := wordCtx s site
    if fenced s site ∨ !fieldOf kind f ∨ msk v (zeroBits kind f) ≠ 0 then .error cCFGBAD
    else if f = 0 then
      if v ≠ 0 ∧ !fourCtx kind then .error cCFGBAD
      else .ok { s with fab := { s.fab with ctxSel := setD s.fab.ctxSel 0 site v } }
    else if f = 0x3C then
      if bits v 5 4 = 3 ∨ 5 ≤ bits v 8 6 then .error cCFGBAD
      else .ok { s with fab := { s.fab with msel := setD s.fab.msel 0 site v } }
    else if f = 0x3D then mdataWord s site v
    else if kind = 0xE then endpWord s site f v
    else if kind = 0xA ∧ (f = 0x11 ∨ (0x12 ≤ f ∧ f ≤ 0x18) ∨ (f = 1 ∧ !bit v 0)) ∧ cellLive (cellAt s site) then
      if bit (fld s k 1) 12 ∨ (f = 1 ∧ bit v 12) then setField (discard s site) cid cmd k f v else .error cCFGLIVE
    else (setField s cid cmd k f v).map (fun s => if g.frozen then updElem s k (fun e => { e with frozen := true }) else s)

/-! ## Streams and commands (R336, R349, R350) -/

/-- A cell whose count of scales is refused does not fire: it is without a block until it takes one that is accepted (R89). -/
def unscaled (s : State) (site cause : Nat) : State :=
  if cause = cSCALE then updElem s (4 * site) (fun e => { e with block := [] }) else s

/-- A fault of a command: a trap of its task at its next instruction, that of a pre-empted task once it goes on, or, where the task has
ended, a record against the graph. -/
def cfgFault (s : State) (cmd : CfgCmd) (x : CfgFault) : State :=
  let ran : Option Nat := cmd.ident.bind (fun i => s.live.findSome? (fun l =>
    if l.task.tid = i.tid then (match l.st with
      | .running c => some c
      | _ => none) else none))
  let trap (y : Ctx) : Ctx := { y with trapNext := y.trapNext ++ [{ f := faultAt x.cause x.addr, pc := cmd.pc, ir := cmd.ir }] }
  let his (y : Ctx) : Bool := y.task.any (fun t => some t.tid == cmd.ident.map (·.tid))
  if s.disp.any (fun d => d.2.saved.any his) then
    { s with disp := s.disp.map (fun d => (d.1, { d.2 with saved := d.2.saved.map (fun y => if his y then trap y else y) })) }
  else
  match ran with
  | some c => updCtx s c trap
  | none =>
    let die := cmd.base / 2 ^ 30 % 4
    raiseRec s die { recOf x.cause 2 with addr := x.addr, who := cmd.base, detail := [] }

/-- Whether a parameter block that a context's command named is still to be read. -/
def cidReads (s : State) (cid : Nat) : Bool := s.fab.elems.any (fun e => match e.2.reading with
  | some r => r.cid == cid
  | none => false)

/-- Whether every configuration command that a context issued has been wholly applied. -/
def cfgDone (s : State) (cid : Nat) : Bool := (ctxOf s cid).cfg.isEmpty && !cidReads s cid

/-- The command at the head of a context's list is done. -/
def cfgPop (s : State) (cid : Nat) : State := updCtx s cid (fun c => { c with cfg := c.cfg.drop 1 })

/-- Whether the context that a word addresses waits for its parameter block. -/
def wordWaits (s : State) (g : Graph) (w : Nat) : Bool :=
  match wordSite g w with
  | none => false
  | some site => (elemAt s (wordCtx s site)).reading.isSome

/-- The site keys of a region. -/
def regionSites (die col row w h : Nat) : List Nat :=
  (range' 0 h).flatMap (fun dr => (range' 0 w).map (fun dc => 2304 * die + 48 * (row + dr) + (col + dc)))

/-- A site is reset (R350): its contexts, its buffers, a cell's accumulators; a changed division empties a node's tags
(R44). -/
def resetSite (s : State) (site : Nat) : State :=
  let kind := kindAt s site
  let nb := fld s (4 * site) 0x16
  let s0 := if kind = 0xA ∧ bits nb 1 0 ≠ 0 then clearNode s site 0 else s
  let s1 := if kind = 0xA ∧ bits nb 3 2 ≠ 0 then clearNode s0 site 1 else s0
  let es := (range' (4 * site) 4).foldl (fun m k => del m k) s1.fab.elems
  let ps := s1.fab.endps.map (fun e => (e.1, if e.1 / 16 = site then { e.2 with cfg := 0, dest := 0, buf := [], last := none, kept := [] } else e.2))
  let s2 := { s1 with fab := { s1.fab with
    elems := es, endps := ps, ctxSel := del s1.fab.ctxSel site, esel := del s1.fab.esel site, msel := del s1.fab.msel site
    running := del s1.fab.running site } }
  let s3 := if kind = 0xA then
      updCell s2 site (fun c => { Cell.reset with tags := c.tags, fill := c.fill, stage := c.stage, taint := c.taint, reuse := c.reuse })
    else s2
  if kind = 0xC then
    s3.fab.circuits.foldl (fun s c => updCircuit s c.1 (fun x =>
      { x with src := if x.src = some site then none else x.src, dst := if x.dst = some site then none else x.dst })) s3
  else s3

/-- What a header asks of a base: the graph as configured, and the package with the region's sites as step 2 or 3 leaves
them. -/
def openStream (s : State) (cmd : CfgCmd) (h : Nat) : Except Nat State :=
  let die := cmd.base / 2 ^ 30 % 4
  let idx := cmd.base / 2 ^ 18 % 4096
  let col := idx % 48
  let row := idx / 48
  let w := bits h 5 0 + 1
  let ht := bits h 11 6 + 1
  let part := bit h 13
  if bits h 15 14 ≠ 0 ∨ bits h 255 192 ≠ 0 ∨ bits h 63 32 = 0 ∨ 2304 ≤ idx ∨ 48 < col + w ∨ 48 < row + ht then .error cCFGBAD
  else if bits h 127 64 % 8 ≠ 0 ∨ bits h 191 128 % 64 ≠ 0 then .error cCFGBAD
  else
    let sites := regionSites die col row w ht
    let old := look s.fab.graphs cmd.base
    let sel (s : State) : State :=
      { s with fab := { s.fab with ctxSel := s.fab.ctxSel.filter (fun x => !sites.contains x.1) } }
    let new (g : Graph) : Graph :=
      { g with rmk := bit h 12, elems := bits h 31 16, rmask := BitVec.ofNat 64 (bits h 127 64), rbuf := BitVec.ofNat 64 (bits h 191 128) }
    if part then
      match old with
      | none => .error cCFGBAD
      | some g =>
        if g.w ≠ w ∨ g.h ≠ ht then .error cCFGBAD
        else if !g.frozen ∧ !graphIdle s cmd.base g then .error cCFGLIVE
        else .ok (sel { s with fab := { s.fab with graphs := put s.fab.graphs cmd.base (new g) } })
    else if sites.any (fun x => match graphAt s x with
        | some (b, _) => b != cmd.base
        | none => false) then .error cCFGBAD
    else
      let was := match old with
        | some g => regionSites g.die g.col g.row g.w g.h
        | none => []
      let g : Graph := { die := die, col := col, row := row, w := w, h := ht, rmk := false, elems := 0, rmask := 0, rbuf := 0,
                         started := false, frozen := false, freezing := none, thawing := none, super := cmd.super, lost := false }
      let s1 := (sites ++ was.filter (fun x => !sites.contains x)).foldl resetSite s
      .ok (sel { s1 with fab := { s1.fab with graphs := put s1.fab.graphs cmd.base (new g) } })

/-- Contexts of a graph with EN = 1. -/
def enabledIn (s : State) (base : Nat) : Nat :=
  (s.fab.elems.filter (fun e => bit (fld s e.1 1) 0 && (graphAt s (e.1 / 4)).map (·.1) == some base)).length

/-- The unit that reads a context's streams: without a TLB of its own, it asks the walker of its graph's die (R31). -/
def CfgCmd.agt (cmd : CfgCmd) (cid : Nat) : Agt := cfgAgt (cmd.base / 2 ^ 30 % 4) cid

/-- The bytes of a stream, read as the issuing context's privilege allows. -/
def streamRead (s : State) (u : Agt) (cmd : CfgCmd) (va : W64) (n : Nat) : Except CfgFault (Nat × State) :=
  match agtRead s u false cmd.super va n with
  | .error f => .error { cause := f.cause, addr := f.addr }
  | .ok ((bs, bad), s1) => if bad then .error { cause := cECC, addr := va } else .ok (natOfBytes bs, unitDone s1 u)

/-- CFG_STREAM_APPLY: the next step of the stream at the head of a context's list; or the walker is asked for the page of its bytes. -/
def streamStep (s : State) (cid : Nat) : State :=
  match (ctxOf s cid).cfg with
  | [] => s
  | cmd :: _ =>
    match cmd.op with
    | .stream va hdr done =>
      let u := cmd.agt cid
      let fail (s : State) (x : CfgFault) : State := cfgFault (cfgPop (unitDone s u) cid) cmd x
      let set (s : State) (op : CfgOp) : State :=
        updCtx s cid (fun c => { c with cfg := { cmd with op := op } :: c.cfg.drop 1 })
      match hdr with
      | none =>
        if cidReads s cid then s
        else if va.toNat % 32 ≠ 0 then fail s { cause := cALIGN, addr := va }
        else
          match agtWaits s u false va 32 with
          | some s1 => s1
          | none =>
          match streamRead s u cmd va 32 with
          | .error x => fail s x
          | .ok (h, s1) =>
            match openStream s1 cmd h with
            | .error c => fail s { cause := c, addr := va }
            | .ok s2 => set s2 (.stream va (some (BitVec.ofNat 256 h)) 0)
      | some h =>
        match look s.fab.graphs cmd.base with
        | none => fail s { cause := cCFGBAD, addr := va }
        | some g =>
          if db h 63 32 ≤ done then
            if cidReads s cid then s
            else if enabledIn s cmd.base ≠ g.elems then fail s { cause := cCFGBAD, addr := va }
            else cfgPop s cid
          else
            let a := va + BitVec.ofNat 64 (32 + 4 * done)
            match agtWaits s u false a 4 with
            | some s1 => s1
            | none =>
            match streamRead s u cmd a 4 with
            | .error x => fail s x
            | .ok (w, s1) =>
              if wordWaits s1 g w then s
              else
                match applyWord s1 cid cmd g w with
                | .error c => fail (unscaled s ((wordSite g w).getD 0) c) { cause := c, addr := a }
                | .ok s2 => set s2 (.stream va (some h) (done + 1))
    | _ => s

/-- CFG_WORD_APPLY: the CFGW at the head of a context's list. -/
def wordStep (s : State) (cid : Nat) : State :=
  match (ctxOf s cid).cfg with
  | [] => s
  | cmd :: _ =>
    match cmd.op with
    | .word w =>
      let fail (c : Nat) : State := cfgFault (cfgPop s cid) cmd { cause := c, addr := BitVec.ofNat 64 cmd.base }
      if cidReads s cid then s
      else
        match look s.fab.graphs cmd.base with
        | none => fail cCFGBAD
        | some g =>
          if !g.frozen ∧ !graphIdle s cmd.base g then fail cCFGLIVE
          else if wordWaits s g w.toNat then s
          else
            match applyWord s cid cmd g w.toNat with
            | .error c => cfgFault (cfgPop (unscaled s ((wordSite g w.toNat).getD 0) c) cid) cmd { cause := c, addr := BitVec.ofNat 64 cmd.base }
            | .ok s2 => cfgPop s2 cid
    | _ => s

/-- PARAM_BLOCK_READ: the block that a context's PARHI named is read whole and taken, or the fault stops its stream. -/
def paramRead (s : State) (k : Nat) : State :=
  match (elemAt s k).reading with
  | none => s
  | some r =>
    let a := getD (elemAt s k).addrs 0 0x11
    let fail (c : Nat) : State :=
      let s1 := unscaled (updElem s k (fun e => { e with reading := none })) (k / 4) c
      let s2 := updCtx s1 r.cid (fun x => { x with cfg := match x.cfg with
        | y :: l => if y.pc = r.cmd.pc ∧ y.base = r.cmd.base ∧ y.ident = r.cmd.ident then l else y :: l
        | [] => [] })
      cfgFault s2 r.cmd { cause := c, addr := BitVec.ofNat 64 a }
    match (paramBytes s a (blockLen (kindAt s (k / 4))) r.cmd.super).bind (fun x => takeBlock x.2 k x.1 r.cmd.super) with
    | .error c => fail c
    | .ok s1 => s1

/-! ## Start, freeze and thaw (R337, R354, R390-R393) -/

/-- The element contexts of a graph. -/
def graphElems (s : State) (base : Nat) : List Nat :=
  (s.fab.elems.filter (fun e => (graphAt s (e.1 / 4)).map (·.1) == some base)).map (·.1)

/-- GSTART: a start token to each context with GS = 1. -/
def graphStart (s : State) (base : Nat) : State :=
  (graphElems s base).foldl (fun s k => if bit (fld s k 0xE) 2 && bit (fld s k 1) 0 then startToken s k else s) s

/-- Changes a graph. -/
def updGraph (s : State) (base : Nat) (f : Graph → Graph) : State :=
  match look s.fab.graphs base with
  | none => s
  | some g => { s with fab := { s.fab with graphs := put s.fab.graphs base (f g) } }

/-- A freeze begins: every context stops; or, by the round marker, the matrix cells stop and the sources send markers. -/
def beginFreeze (s : State) (base : Nat) (fut : W64) (round : Bool) : State :=
  let s1 := updGraph s base (fun g => { g with freezing := some (fut, round) })
  if !round then freezeGraph s1 base
  else (graphElems s1 base).foldl (fun s k => updElem s k (fun e =>
    { e with marks := [], marked := false, frozen := if kindAt s (k / 4) = 0xA then true else e.frozen })) s1

/-- Inputs of a context that wait for a marker: those fed from within its graph and not back edges. -/
def markInputs (s : State) (k base : Nat) : List (Nat × Nat) :=
  (range' 0 4).filterMap (fun i =>
    if bit (fld s k 0xF) i then none
    else
      match producerOf s (.elem k i) with
      | some (j, _) => if (graphAt s (j / 4)).map (·.1) = some base ∧ bit (fld s j 1) 0 then some (i, j) else none
      | none => none)

/-- Whether a context would go on with what it has taken, were there room for what it sends: the tokens ahead of a marker are not all
processed (R392). -/
def stillWorks (s : State) (k : Nat) : Bool :=
  let clear (s : State) : Dest → State
    | .elem j i => updElem s j (fun e => { e with ins := del e.ins i, frozen := false })
    | .endp j => updEndp s j (fun e => { e with buf := [] })
    | .circ c => updCircuit s c (fun x => { x with buf := [] })
  (tryFire (updElem (((range' 0 4).flatMap (outDests s k)).foldl clear s) k (fun e => { e with ins := [] })) k).isSome

/-- Whether a context is a source of its graph: a root scanner, an AGT-LOAD (R392). -/
def isSource (s : State) (k : Nat) : Bool :=
  (kindAt s (k / 4) == 1 && bit (blk (elemAt s k) 16 1) 2) || (kindAt s (k / 4) == 0xB && mopMode s k == 3)

/-- ROUND_MARKER_RECEIVE (R392): the markers that have come on a context's inputs; with one on each, and the tokens ahead of
them processed, the context sends its own and stops. On an input from outside the graph the marker stands ahead of the tokens there. A
source sends it at once. -/
def markerStep (s : State) (k : Nat) : State :=
  match graphAt s (k / 4) with
  | none => s
  | some (base, g) =>
    let e := elemAt s k
    let on := match g.freezing with
      | some (_, r) => r
      | none => false
    if !on ∨ e.marked ∨ !bit (fld s k 1) 0 ∨ kindAt s (k / 4) = 0xA then s
    else
      let ins := markInputs s k base
      let come := (ins.filter (fun p =>
        let x := elemAt s p.2
        e.marks.contains p.1 || (x.marked || kindAt s (p.2 / 4) == 0xA) && x.outq.isEmpty && (getD e.ins [] p.1).isEmpty)).map (·.1)
      let s1 := updElem s k (fun e => { e with marks := come })
      let whole := ins.all (fun p => come.contains p.1)
      if e.outq.isEmpty && (isSource s k || (whole && !stillWorks s k)) then updElem s1 k (fun e => { e with marked := true })
      else s1

/-- Whether a readout mask names a relative site of a graph: bit dr * W + dc. -/
def maskBits (s : State) (u : Agt) (g : Graph) (super : Bool) : Except FaultInfo (Nat × State) :=
  if g.rmask = 0 then .ok (2 ^ (g.w * g.h) - 1, s)
  else
    match agtRead s u false super g.rmask ((g.w * g.h + 7) / 8) with
    | .error f => .error f
    | .ok ((bs, bad), s1) => if bad then .error (faultAt cECC g.rmask) else .ok (natOfBytes bs, s1)

/-- The first page of a graph's mask that its unit has still to ask the walker for (R31). -/
def maskWaits (s : State) (u : Agt) (g : Graph) : Option State :=
  if g.rmask = 0 then none else agtWaits s u false g.rmask ((g.w * g.h + 7) / 8)

/-- Relative sites of a graph in the order of readout records: (dc, dr). -/
def recordSites (g : Graph) (mask : Nat) : List (Nat × Nat) :=
  (range' 0 (g.w * g.h)).filterMap (fun n => if bit mask n then some (n % g.w, n / g.w) else none)

/-- An accumulator value in the form of R72. -/
def accBytes (ints : Bool) (v : BitVec 56) : List Byte :=
  bytesOfNat 8 (if ints then wrapI 64 (sgn 56 v.toNat) else v.toNat)

/-- A number of an accumulator tag, as the counters of a readout hold it. -/
def tagCode : AccTag → Nat
  | .empty => 0
  | .live => 1
  | .full => 2
  | .draining => 3

def accTagOf (n : Nat) : AccTag :=
  match n with
  | 0 => .empty
  | 1 => .live
  | 2 => .full
  | _ => .draining

/-- A Bool as a bit of a number. -/
def flagAt (b : Bool) (n : Nat) : Nat := if b then 2 ^ n else 0

/-- The command that an operation or a drain serves, as 8 bytes and two bits. -/
def cmdBytes (c : Option CellCmd) : List Byte := bytesOfNat 8 ((c.map CellCmd.cmd).getD 0).toNat
def cmdFlags (c : Option CellCmd) : Nat := flagAt c.isSome 0 + flagAt (c.any CellCmd.super) 1

/-- The counters, tags and SAT of a cell with the operation and the drain in progress: 56 of the 64 bytes that R391 gives them, in an
order that is the model's (DESIGN CHOICE, log 12). -/
def counterBytes (c : Cell) : List Byte :=
  let b := c.busy.getD { zb := false, a := 0, b := 0, cmd := none }
  let d := c.drain.getD { zb := false, tile := 0, next := 0, bytes := 0, cmd := none }
  bytesOfNat 4 c.c ++ bytesOfNat 4 c.t ++ bytesOfNat 4 c.k ++ bytesOfNat 4 c.tileA ++ bytesOfNat 4 c.tileB ++
  bytesOfNat 1 (tagCode c.tagA) ++ bytesOfNat 1 (tagCode c.tagB) ++ bytesOfNat 1 (flagAt c.satA 0 + flagAt c.satB 1) ++
  bytesOfNat 1 (flagAt c.busy.isSome 0 + flagAt b.zb 1 + 4 * (b.a % 8) + 32 * (b.b % 8)) ++
  bytesOfNat 1 c.nextA ++ bytesOfNat 1 c.nextB ++
  bytesOfNat 1 (flagAt c.drain.isSome 0 + flagAt d.zb 1) ++ bytesOfNat 1 (cmdFlags b.cmd + 4 * cmdFlags d.cmd) ++
  bytesOfNat 4 d.tile ++ bytesOfNat 4 d.next ++ bytesOfNat 4 d.bytes ++ cmdBytes b.cmd ++ cmdBytes d.cmd

/-- The decoder block (R391): its band is the last one released. -/
def decoderBytes (c : Cell) : List Byte :=
  (range' 0 128).flatMap (fun l => bytesOfNat 4 (c.lanes.getD l 0)) ++ bytesOfNat 4 c.step ++ bytesOfNat 4 c.ptr ++ bytesOfNat 4 (c.band - 1)

/-- A cell's body (R391): ZA, ZB, row sums, 64 bytes of counters, tags and SAT, and the decoder block. -/
def cellBody (s : State) (site : Nat) : List Byte :=
  let c := cellAt s site
  let i := (cellCfg s site).ints
  let tile (m : FMap (BitVec 56)) (n : Nat) : List Byte := (range' 0 n).flatMap (fun x => accBytes i (getD m 0 x))
  tile c.za 4096 ++ tile c.zb 4096 ++ tile c.ra 64 ++ tile c.rb 64 ++ (counterBytes c ++ List.replicate 64 0).take 64 ++ decoderBytes c

/-- A body padded to a multiple of 64 bytes. -/
def padBody (b : List Byte) : List Byte := b ++ List.replicate ((b.length + 63) / 64 * 64 - b.length) 0

/-- The bytes of a site's body: of a cell 67,148 in whole units of 64; of another site as many as the implementation has. -/
def bodyLen (s : State) (site : Nat) : Nat := if kindAt s site = 0xA then 67200 else 64 * (Config.readoutLen site + 1)

/-- The site at a place of a graph. -/
def placeSite (g : Graph) (p : Nat × Nat) : Nat := 2304 * g.die + 48 * (g.row + p.2) + (g.col + p.1)

/-- The record of a site in a readout (R391). The body of a site other than a cell is the implementation's: here the number under which
the states of its contexts are kept, then free bytes (DESIGN CHOICE, log 12). -/
def siteRecord (s : State) (g : Graph) (p : Nat × Nat) (num : Nat) : List Byte :=
  let site := placeSite g p
  let ctxs := (range' 0 4).foldl (fun n c => if bit (fld s (4 * site + c) 1) 0 then n + 2 ^ c else n) 0
  let body := if kindAt s site = 0xA then padBody (cellBody s site)
    else bytesOfNat 8 num ++ (range' 8 (bodyLen s site - 8)).map (Config.readoutByte site)
  bytesOfNat 2 (64 * p.2 + p.1) ++ bytesOfNat 1 (kindAt s site) ++ bytesOfNat 1 ctxs ++ bytesOfNat 4 (16 + body.length) ++
  bytesOfNat 8 0 ++ body

/-- Writes a readout: the places with their numbers. -/
def writeReadout (s : State) (u : Agt) (g : Graph) (super : Bool) (a : W64) : List ((Nat × Nat) × Nat) → Except FaultInfo State
  | [] => .ok s
  | p :: r =>
    let bs := siteRecord s g p.1 p.2
    match agtTargets s u false super .wr a bs.length with
    | .error f => .error f
    | .ok xs => writeReadout (agtWrite u s xs bs false) u g super (a + BitVec.ofNat 64 bs.length) r

/-- Keeps the states of sites' contexts, by number. -/
def keepStates (s : State) (g : Graph) (ps : List ((Nat × Nat) × Nat)) : State :=
  { s with fab := { s.fab with readElems := ps.foldl (fun m p => put m p.2 ((range' 0 4).filterMap (fun c =>
      (look s.fab.elems (4 * placeSite g p.1 + c)).map (fun e => (c, e))))) s.fab.readElems } }

/-- Removes the mark of a freeze or thaw of a graph from the contexts that wait for it. -/
def cfgUnmark (s : State) (base : Nat) : State :=
  let f (c : Ctx) : Ctx := { c with cfg := c.cfg.filter (fun x => x.op ≠ .graph ∨ x.base ≠ base) }
  { s with cx := f s.cx, others := s.others.map (fun p => (p.1, f p.2)) }

/-- A fault of a freeze or thaw, recorded against the graph. -/
def graphFault (s : State) (base : Nat) (f : FaultInfo) : State :=
  raiseRec s (base / 2 ^ 30 % 4) { recOf f.cause 2 with addr := f.addr, who := base, detail := [] }

/-- Resolves a graph command's future with 0. -/
def graphFuture (s0 : State) (base : Nat) (fut : W64) (super : Bool) : State :=
  if fut = 0xFFFFFFFF#64 then s0
  else
    let s := if fut.toNat < 2 ^ 32 then drainBank s0 (3 * siteKey fut.toNat) else s0
    let r : Except Nat State := match checkObj s fut 8 super with
      | .error f => .error f.cause
      | .ok a => if poisoned s a 8 then .error cECC else futResolve s a 0
    match r with
    | .ok s1 => s1
    | .error c => graphFault s base (faultAt c fut)

/-- A cell stops at a k-step boundary: a free number of its groups has been performed (R390; DESIGN CHOICE, log 8). -/
def stopCell (s : State) (site : Nat) : State :=
  match (cellAt s site).busy with
  | none => s
  | some _ =>
    let o := cellCfg s site
    let c := cellAt s site
    let (d, s1) := draw s
    runSteps s1 site (c.k + o.g * (Config.choose d % ((o.kc - c.k) / o.g + 1)))

/-- The first page of a readout that a graph's unit has still to ask the walker for (R31). -/
def readoutWaits (s : State) (base : Nat) (g : Graph) : Option State :=
  let u := graphAgt g.die base
  match maskWaits s u g with
  | some s1 => some s1
  | none =>
    match maskBits s u g g.super with
    | .error _ => none
    | .ok (mask, s1) =>
      agtWaits s u false g.rbuf (((recordSites g mask).map (fun p => 16 + bodyLen s1 (placeSite g p))).foldl (· + ·) 0)

/-- The readout of a graph, its future, and the commands that waited. -/
def finishFreeze (s : State) (base : Nat) (g : Graph) (fut : W64) : State :=
  let u := graphAgt g.die base
  let done (s : State) : State := cfgUnmark (updGraph (unitDone s u) base (fun g => { g with freezing := none, frozen := true })) base
  match maskBits s u g g.super with
  | .error f => done (graphFault s base f)
  | .ok (mask, s1) =>
    let sites := recordSites g mask
    let ps := sites.zip (range' s1.fab.readElems.length sites.length)
    match writeReadout s1 u g g.super g.rbuf ps with
    | .error f => done (graphFault s1 base f)
    | .ok s2 =>
      graphFuture (done (keepStates s2 g ps)) base fut g.super

/-- GRAPH_FREEZE_COMPLETE: the readout is written; or the walker is asked for a page of it. -/
def freezeComplete (s : State) (base : Nat) : State :=
  match look s.fab.graphs base with
  | none => s
  | some g =>
    match g.freezing with
    | none => s
    | some (fut, round) =>
      let ks := graphElems s base
      let stopped (k : Nat) : Bool :=
        let e := elemAt s k
        !bit (fld s k 1) 0 || kindAt s (k / 4) == 0xA || e.marked || e.faulted.isSome
      if round && !ks.all stopped then s
      else
        match readoutWaits s base g with
        | some s1 => s1
        | none =>
        let s1 := ks.foldl (fun s k => if kindAt s (k / 4) = 0xA then stopCell s (k / 4) else s) (freezeGraph s base)
        finishFreeze s1 base g fut

/-- A context as configured, with nothing of its stream: waiting for its start token, if it has START. -/
def freshElem (s : State) (k : Nat) (e : Elem) : Elem :=
  { Elem.reset with fields := e.fields, addrs := e.addrs, block := e.block, init := e.init, waiting := bit (fld s k 0xE) 0 }

/-- A cell from the body of its record, beside what belongs to its site and its configuration. Its decoder goes on where it stands if
it is
the one that was saved; else it begins again at the restart records of the band that holds the first k-step not yet summed, whose
earlier symbol rows are not used again (R113). -/
def restoreCell (now : Cell) (vq2 : Bool) (body : List Byte) : Cell :=
  let at_ (o n : Nat) : Nat := natOfBytes ((body.drop o).take n)
  let tile (o n : Nat) : FMap (BitVec 56) := (range' 0 n).filterMap (fun i =>
    let v := BitVec.ofNat 56 (at_ (o + 8 * i) 7)
    if v = 0 then none else some (i, v))
  let num (o n : Nat) : Nat := at_ (66560 + o) n
  let cmd (f o : Nat) : Option CellCmd := if bit f 0 then some { cmd := BitVec.ofNat 64 (num o 8), super := bit f 1 } else none
  let b := num 23 1
  let d := num 26 1
  let busy : Option Chunk := if bit b 0 then some { zb := bit b 1, a := bits b 4 2, b := bits b 7 5, cmd := cmd (num 27 1) 40 } else none
  let drain : Option Drain := if bit d 0 then
      some { zb := bit d 1, tile := num 28 4, next := num 32 4, bytes := num 36 4, cmd := cmd (num 27 1 / 4) 48 }
    else none
  let c1 := { now with
    za := tile 0 4096, zb := tile 32768 4096, ra := tile 65536 64, rb := tile 66048 64, c := num 0 4, t := num 4 4, k := num 8 4
    tileA := num 12 4, tileB := num 16 4, tagA := accTagOf (num 20 1), tagB := accTagOf (num 21 1), satA := bit (num 22 1) 0
    satB := bit (num 22 1) 1, nextA := num 24 1, nextB := num 25 1, busy := busy, drain := drain, point := none }
  if counterBytes now = counterBytes c1 ∧ decoderBytes now = (body.drop 66624).take 524 then c1
  else if busy.isNone then c1.undecoded
  else
    let band := (if vq2 then c1.k / 2 else c1.k) / 256
    { c1.undecoded with band := band, rows := List.replicate (256 * band) [] }

/-- A masked site is restored from its record: a cell from its bytes, another site's contexts from what its number stands for; a number
that no readout has written leaves them as they stand (DESIGN CHOICE, log 12). -/
def restoreSite (s : State) (g : Graph) (p : Nat × Nat) (bs : List Byte) : State :=
  let site := placeSite g p
  let body := bs.drop 16
  if kindAt s site = 0xA then updCell s site (fun now => restoreCell now ((cellCfg s site).fb == 0xB) body)
  else
    let es := (look s.fab.readElems (natOfBytes (body.take 8))).getD []
    (range' 0 4).foldl (fun s c =>
      match look es c, look s.fab.elems (4 * site + c) with
      | some e, some now => updElem s (4 * site + c) (fun _ =>
          { e with fields := now.fields, addrs := now.addrs, block := now.block, init := now.init, marks := [], marked := false
                   faulted := e.faulted, frozen := true })
      | _, _ => s) s

/-- Restores the records of a readout in order. -/
def restoreAll (s : State) (u : Agt) (g : Graph) (super : Bool) (a : W64) : List (Nat × Nat) → Except FaultInfo State
  | [] => .ok s
  | p :: r =>
    match agtRead s u false super a 16 with
    | .error f => .error f
    | .ok ((hd, _), s1) =>
      let n := natOfBytes ((hd.drop 4).take 4)
      match agtRead s1 u false super a (min n (16 + bodyLen s1 (placeSite g p))) with
      | .error f => .error f
      | .ok ((bs, bad), s2) =>
        if bad then .error (faultAt cECC a) else restoreAll (restoreSite s2 g p bs) u g super (a + BitVec.ofNat 64 n) r

/-- The first page of a readout's records that a graph's unit has still to ask the walker for (R31). -/
def recordWaits (s : State) (u : Agt) (g : Graph) (super : Bool) (a : W64) : List (Nat × Nat) → Option State
  | [] => none
  | p :: r =>
    match agtWaits s u false a 16 with
    | some s1 => some s1
    | none =>
      match agtRead s u false super a 16 with
      | .error _ => none
      | .ok ((hd, _), _) =>
        let n := natOfBytes ((hd.drop 4).take 4)
        match agtWaits s u false a (min n (16 + bodyLen s (placeSite g p))) with
        | some s1 => some s1
        | none => recordWaits s u g super (a + BitVec.ofNat 64 n) r

/-- A cell as configured: its tables and what belongs to its operand nodes stay; nothing of its operations does (R393). -/
def freshCell (c : Cell) : Cell :=
  { Cell.reset with tags := c.tags, fill := c.fill, stage := c.stage, taint := c.taint, cb := c.cb, pt := c.pt, ft := c.ft, mord := c.mord }

/-! ## A graph that holds a fenced site (R409) -/

/-- Whether every RMW MEMOP of a graph stands at a DONE (R409). -/
def rmwDone (s : State) (base : Nat) (g : Graph) : Bool :=
  !g.started || (graphElems s base).all (fun k => kindAt s (k / 4) != 0xB || mopMode s k != 2 || !bit (fld s k 1) 0 || elemRest s k)

/-- The firing of a graph's contexts resumes. -/
def runGraph (s : State) (base : Nat) : State :=
  (graphElems s base).foldl (fun s k => updElem s k (fun e => { e with frozen := false, marked := false, marks := [] }))
    (updGraph s base (fun g => { g with frozen := false }))

/-- A site takes the configuration and the state that another had, as a readout of it restores them (R393); what belongs to its operand
nodes is its own. -/
def takeSite (old s : State) (site t : Nat) : State :=
  let s1 := (range' 0 4).foldl (fun s c => match look old.fab.elems (4 * site + c) with
    | none => s
    | some e => updElem s (4 * t + c) (fun _ => { e with frozen := true })) s
  let s2 := (range' 0 16).foldl (fun s n => match look old.fab.endps (16 * site + n) with
    | none => s
    | some e => updEndp s (16 * t + n) (fun x => { x with cfg := e.cfg, dest := e.dest })) s1
  let s3 := if kindAt old site ≠ 0xA then s2
    else redivide s (updCell s2 t (fun c =>
      let was := cellAt old site
      let now := { freshCell was with tags := c.tags, fill := c.fill, stage := c.stage, taint := c.taint }
      { restoreCell now ((cellCfg old site).fb == 0xB) (cellBody old site) with cmds := was.cmds, stopped := was.stopped })) t
  let sel (m was : FMap Nat) : FMap Nat := match look was site with
    | none => m
    | some v => put m t v
  let tables := old.fab.mordant.filter (fun p => p.1 / 48 = site)
  { s3 with fab := { s3.fab with
      ctxSel := sel s3.fab.ctxSel old.fab.ctxSel, esel := sel s3.fab.esel old.fab.esel, msel := sel s3.fab.msel old.fab.msel
      mordant := tables.foldl (fun m p => put m (48 * t + p.1 % 48) p.2) s3.fab.mordant
      circuits := s3.fab.circuits.map (fun c =>
        let was := (look old.fab.circuits c.1).getD Circuit.reset
        (c.1, { c.2 with src := if was.src = some site then some t else c.2.src, dst := if was.dst = some site then some t else c.2.dst })) } }

/-- The sites of a graph, and one of its sites in another place of it. -/
def Graph.sites (g : Graph) : List Nat := regionSites g.die g.col g.row g.w g.h
def Graph.moved (g h : Graph) (site : Nat) : Nat :=
  2304 * h.die + 48 * (h.row + (site % 2304 / 48 - g.row)) + (h.col + (site % 48 - g.col))

/-- A graph goes from one base to another, as a stream of the same image places it there. -/
def moveGraph (s : State) (a b : Nat) (g h : Graph) : State :=
  let s1 := (g.sites ++ h.sites.filter (fun x => !g.sites.contains x)).foldl resetSite s
  g.sites.foldl (fun t x => takeSite s t x (g.moved h x)) { s1 with fab := { s1.fab with graphs := put (del s1.fab.graphs a) b h } }

/-- Whether channels of some sites share a link's virtual channel with others (R353). -/
def sitesClash (s : State) (sites : List Nat) : Bool :=
  sites.any (fun x =>
    (range' (4 * x) 4).any (fun k => bit (fld s k 1) 0 && (range' 0 4).any (fun o => outUsed s k o && linkShared s k o)) ||
    (range' (16 * x) 16).any (fun p => bit (endpAt s p).cfg 0 && bit (endpAt s p).cfg 1 && linkClash s (endpLinks s p) none (some p)))

/-- The places of its die to which a graph can go: sites of its kinds, none fenced or another graph's. -/
def placesFor (s : State) (base : Nat) (g : Graph) : List (Nat × Nat) :=
  ((range' 0 2304).map (fun i => (i % 48, i / 48))).filter (fun p =>
    let h := { g with col := p.1, row := p.2 }
    decide (p.1 + g.w ≤ 48) && decide (p.2 + g.h ≤ 48) &&
      g.sites.all (fun x =>
        let t := g.moved h x
        kindAt s t == kindAt s x && !fenced s t && (match graphAt s t with
          | none => true
          | some (b, _) => b == base)) &&
      !sitesClash (moveGraph s base (2 ^ 30 * g.die + 2 ^ 18 * (48 * p.2 + p.1)) g h) h.sites)

/-- The loader places a frozen graph that holds a fenced site again, off the fenced sites, and restores it from the readout of every site
that the hardware makes before that (R409, Table 12-2); one with an RMW MEMOP amid its stream, or with no place, is reported with ECC_UE
(which place, and that the base goes with the graph: DESIGN CHOICE, log 56). -/
def placeAgain (s : State) (base : Nat) (g : Graph) : State :=
  let report (s : State) : State := graphFault (updGraph s base (fun g => { g with lost := false })) base (faultAt cECC (BitVec.ofNat 64 base))
  if !rmwDone s base g then report s
  else
    match placesFor s base g with
    | [] => report s
    | p :: l =>
      let (k, s1) := draw s
      let q := (p :: l).getD (Config.choose k % (l.length + 1)) p
      let s2 := (graphElems s1 base).foldl (fun s k => if kindAt s (k / 4) = 0xA then stopCell s (k / 4) else s) s1
      let b := 2 ^ 30 * g.die + 2 ^ 18 * (48 * q.2 + q.1)
      runGraph (moveGraph s2 base b g { g with col := q.1, row := q.2, lost := false }) b

/-- GRAPH_THAW_COMPLETE, once its unit has the pages of the readout: masked sites are restored, the others are as configured with their initial tokens; firing resumes
and the future is resolved. A graph that holds a fenced site is placed again (R409). -/
def thawComplete (s : State) (base : Nat) : State :=
  match look s.fab.graphs base with
  | none => s
  | some g =>
    match g.thawing with
    | none => if g.lost && g.freezing.isNone then placeAgain s base g else s
    | some fut =>
      let u := graphAgt g.die base
      let done (s : State) : State := cfgUnmark (updGraph (unitDone s u) base (fun g => { g with thawing := none })) base
      if g.rbuf = 0 then graphFuture (runGraph (done s) base) base fut g.super
      else
        match maskWaits s u g with
        | some s1 => s1
        | none =>
        match maskBits s u g g.super with
        | .error f => done (graphFault s base f)
        | .ok (mask, s1) =>
          let ps := recordSites g mask
          match recordWaits s u g g.super g.rbuf ps with
          | some s2 => s2
          | none =>
          let rest := (recordSites g (2 ^ (g.w * g.h) - 1)).filter (fun p => !ps.contains p)
          let keys := rest.flatMap (fun p => range' (4 * placeSite g p) 4)
          match restoreAll s1 u g g.super g.rbuf ps with
          | .error f => done (graphFault s1 base f)
          | .ok s2 =>
            let fresh (s : State) (k : Nat) : State :=
              match look s.fab.elems k with
              | none => s
              | some e =>
                let s' := updElem s k (fun _ => freshElem s k e)
                if kindAt s (k / 4) = 0xA then updCell s' (k / 4) freshCell else s'
            let s3 := keys.foldl fresh s2
            graphFuture (runGraph (done (keys.foldl (fun s k => placeInit s k (elemAt s k).init) s3)) base) base fut g.super

end Sys2Proof.Machine
end

