-- ==== Sys2Proof/Machine/Links.lean ====
section
/-! DEFINITION. Fythiman links: injection, routing, hops and arrival of packets; active messages; accesses of peers;
Narrows circuits (spec/01 R15, spec/02 R57, spec/11 R334, spec/14 R418-R426). -/

namespace Sys2Proof.Machine
open Sys2Proof

/-! ## The torus (R418-R421) -/

/-- The size of a dimension, and a package's coordinate in it. -/
def dimSize (s : State) (d : Nat) : Nat :=
  let v := dev s 0x100A10
  match d with
  | 0 => bits v 15 13 + 1
  | 1 => bits v 20 16 + 1
  | _ => bits v 25 21 + 1
def coord (s : State) (p d : Nat) : Nat :=
  match d with
  | 0 => p % dimSize s 0
  | 1 => p / dimSize s 0 % dimSize s 1
  | _ => p / (dimSize s 0 * dimSize s 1)

/-- Whether a link of this package carries traffic: UP of its LNKST. -/
def linkUp (s : State) (port : Nat) : Bool := bit (dev s (0x100B00 + 8 * port)) 0

/-- The link of a pair that a packet takes: by its ends, or for a circuit by its number (R421, R426). -/
def pairLink (p : Packet) : Nat :=
  match p.circ with
  | some (c, _, _) => c % 2
  | none => (p.src + p.dst) % 2

/-- The outgoing port of a packet in a dimension: the direction of fewer hops, plus when equal; the other link, then the other
direction, where links are down. -/
def outPort (s : State) (p : Packet) (d : Nat) : Option Nat :=
  let n := dimSize s d
  let fwd := (coord s p.dst d + n - coord s (ownPkg s) d) % n
  let minus := if fwd ≤ n - fwd then 0 else 1
  let l := pairLink p
  [4 * d + 2 * minus + l, 4 * d + 2 * minus + (1 - l), 4 * d + 2 * (1 - minus) + l, 4 * d + 2 * (1 - minus) + (1 - l)].find? (linkUp s)

/-- The first dimension, from one on, in which a packet is not at its destination. -/
def nextDim (s : State) (p : Packet) (d : Nat) : Option Nat :=
  ([0, 1, 2].filter (fun x => decide (d ≤ x))).find? (fun x => coord s p.dst x != coord s (ownPkg s) x)

/-- Whether a port's link is the dateline of its ring. -/
def dateline (s : State) (port : Nat) : Bool :=
  let d := port / 4
  let x := coord s (ownPkg s) d
  if port / 2 % 2 = 0 then x + 1 == dimSize s d else x == 0

/-! ## Injection and hops (R422) -/

/-- Whether a request is not sent yet: a write or an atomic to a line for which an earlier one has no response, or any while no tag is
free (R423); writes of the mirror go in their order (R410). -/
def reqHeld (s : State) (p : LinkPkt) : Bool :=
  (p.pkt.mirror && (s.host.pkts.takeWhile (fun q => q.id ≠ p.id)).any (fun q => q.pkt.mirror && q.inp == 12)) ||
  ownReq s p.pkt && (decide (256 ≤ s.host.asked.length) || s.host.asked.any (fun a => linesMeet a.2 (reqLines p.pkt)) ||
    (s.host.pkts.takeWhile (fun q => q.id ≠ p.id)).any (fun q => ownReq s q.pkt && linesMeet (reqLines q.pkt) (reqLines p.pkt)))

/-- The flits of a buffer of an input port that held packets take: 0 the A pool, 1 E0, 2 E1; of one that comes flit by flit, what the
buffer holds of it (R422). -/
def bufUsed (s : State) (port k : Nat) : Nat :=
  if k = 0 then flitsOf (s.host.pkts.filter (fun p => p.inp = port ∧ !p.pkt.e))
  else ((s.host.pkts.filter (fun p => p.inp = port ∧ p.pkt.e ∧ (p.pkt.par == (k == 2)))).map (fun p => min 4 (p.pkt.len - p.sent))).foldl (· + ·) 0

/-- Whether a packet of this package still waits where it comes from: the flits before it fill the injection point (R422). -/
def outside (s : State) (p : LinkPkt) : Bool :=
  p.inp == 12 && decide (16 < flitsOf ((s.host.pkts.takeWhile (fun q => q.id ≠ p.id)).filter (fun q => q.inp = 12)) + (p.pkt.len - p.sent))

/-- The port that a held packet waits for, with the dimension of its next hop; one that has started on a link sends all its flits
there. -/
def hopOf (s : State) (p : LinkPkt) : Option (Nat × Nat) :=
  if outside s p ∨ (p.link.isNone ∧ reqHeld s p) then none
  else (nextDim s p.pkt p.dim).bind (fun d => (p.link.or (outPort s p.pkt d)).map (fun o => (d, o)))

/-- The lowest free tag. -/
def freeTag (s : State) : Nat := ((range' 0 256).find? (fun t => s.host.asked.all (fun a => a.1 ≠ t))).getD 0

/-- The buffer that a packet came into. -/
def bufOf (p : Packet) : Nat := if !p.e then 0 else if p.par then 2 else 1

/-- Slots of an input buffer come free: they go back with what next leaves on the port's link (R422). -/
def owe (s : State) (port k n : Nat) : State :=
  if 12 ≤ port then s else { s with host := { s.host with owed := put s.host.owed (3 * port + k) (getD s.host.owed 0 (3 * port + k) + n) } }

/-- The credits that a packet takes back to the far end of a port. -/
def owedTo (s : State) (port : Nat) : List (Nat × Nat) :=
  (range' 0 3).filterMap (fun k => let n := getD s.host.owed 0 (3 * port + k); if n = 0 then none else some (k, n))

/-- A packet, the last of its flits sent on a link, is gone: a request takes a tag, and waits for its response; credits go
with it. -/
def packetLeaves (s : State) (port : Nat) (p : LinkPkt) (par e : Bool) : State :=
  let own := ownReq s p.pkt
  let t := if own then freeTag s else p.pkt.tag
  { s with host := { s.host with
      pkts := s.host.pkts.filter (fun q => q.id ≠ p.id)
      left := s.host.left ++ [(port, { p.pkt with par := par, e := e, tag := t, ret := owedTo s port })]
      owed := s.host.owed.filter (fun o => o.1 / 3 ≠ port)
      asked := if own then s.host.asked ++ [(t, reqLines p.pkt)] else s.host.asked } }

/-- n flits of a packet go on a link, to a buffer of its far end: they leave theirs here. -/
def sendFlits (s : State) (port k n : Nat) (p : LinkPkt) (par e : Bool) : State :=
  let s1 := owe { s with host := { s.host with used := put s.host.used (3 * port + k) (getD s.host.used 0 (3 * port + k) + n) } } p.inp
    (bufOf p.pkt) n
  if p.pkt.len ≤ p.sent + n then packetLeaves s1 port p par e
  else { s1 with host := { s1.host with pkts := s1.host.pkts.map (fun q => if q.id = p.id then { q with link := some port, sent := p.sent + n } else q) } }

/-- PACKET_HOP: the first of the packets that wait for a link, or the one that has started there, is sent on it, in class A whole where
the far pool has room for all of it, else in class E flit by flit as its credits allow. -/
def packetHop (s : State) (id : Nat) : State :=
  match s.host.pkts.find? (fun p => p.id = id) with
  | none => s
  | some p =>
    match hopOf s p with
    | none => s
    | some (d, port) =>
      let here := s.host.pkts.filter (fun q => (hopOf s q).map (·.2) = some port)
      let first := (here.find? (fun q => q.link.isSome)).or here.head?
      if first.map (·.id) ≠ some id ∨ s.host.pointsDone < p.need then s
      else
        let turned := d != p.dim
        let par := (p.pkt.par && !turned) || dateline s port
        let e := p.pkt.e && !turned
        let used (k : Nat) : Nat := getD s.host.used 0 (3 * port + k)
        let ek := if par then 2 else 1
        if p.link.isNone ∧ !e ∧ used 0 + p.pkt.len ≤ 16 then sendFlits s port 0 p.pkt.len p par false
        else if used ek < 4 then sendFlits s port ek (min (p.pkt.len - p.sent) (4 - used ek)) p par true
        else s

/-! ## Active messages (R334) -/

/-- The payload address of a message: argument bytes 40-43. -/
def payloadAddr (p : BitVec 512) : Nat := pk p 479 448

/-- ACTIVE_MESSAGE_ARRIVE at a die of this package: the payload is written, and the launch joins its domain's spawn queue, or
the message is refused with a record. -/
def messageArrive (s0 : State) (m : Message) : State :=
  let die := m.die % 4
  let a := payloadAddr m.packet
  let n := m.payload.length
  let no (c : Nat) : State := refuse s0 die 0 2 0 (faultAt c (BitVec.ofNat 64 a))
  if m.pkg ≠ ownPkg s0 ∨ (dispAt s0 die).cancelled then s0
  else if n ≠ 0 ∧ (a % 64 ≠ 0 ∨ sPlace s0 a ≠ .bank ∨ siteKey a ≠ siteKey (a + n - 1) ∨ 2 ^ 32 < a + n) then no cCFGBAD
  else if n ≠ 0 ∧ !m.super ∧ (linePieces (BitVec.ofNat 64 a) n).any (fun p => (srgn s0 p.1.toNat).2) then no cPROT
  else if pk m.packet 7 0 ≠ 1 ∨ launchBad s0 m.packet ∨ pk m.packet 9 8 = 2 then no cCFGBAD
  else if tsTooLow s0 (pkDom m.packet) (pkTs m.packet) then no cTSORDER
  else
    match handlerEntry s0 die (pkHidx m.packet) with
    | .error f => refuse s0 die 0 2 0 f
    | .ok e =>
      let s1 := if n = 0 then s0 else unitWrite s0 false { super := m.super, ident := none } a m.payload false
      enqueueSpawn (entryNote s1 die (pkHidx m.packet)) die m.packet (pkTs m.packet) (pk m.packet 24 22) none false false e

/-- A message leaves a task: to a die of this package, or into the links; else what has no room for it. -/
def sendMessage (s : State) (m : Message) (gated : Bool) : Except RoomIn State :=
  if m.pkg = ownPkg s then
    (if spillFull s (m.die % 4) then .error (.spill (m.die % 4)) else .ok (messageArrive s m))
  else
    let len := 1 + (m.payload.length + 63) / 64
    if injectRoom s len then .ok (inject s { packetTo s m.pkg m.die len with msg := some m } gated) else .error (.link len)

/-! ## Accesses of peers (R15, R57) -/

/-- PEER_ACCESS_SERVE: a read, write (kind 1) or atomic (kind 2 on, in the row order of Table 2-5) of another package at an
exposed HBM offset of this one, at its home after the recall of its line. -/
def peerServe (s : State) (a : PeerAcc) : State :=
  let loc := locHbm a.off
  if a.len = 0 ∨ 128 < a.len ∨ 2 ^ 39 < a.off + a.len ∨ !exposed s a.off a.len then s
  else if a.kind = 0 then (linePieces (BitVec.ofNat 64 loc) a.len).foldl (fun s p => takeBack s (p.1.toNat / 64)) s
  else if a.kind = 1 then
    (linePieces (BitVec.ofNat 64 loc) a.len).foldl (fun (s : State) p =>
      homeWrite s p.1.toNat (((bytesOfNat a.len a.data).drop (p.1.toNat - loc)).take p.2)) s
  else if (a.len ≠ 2 ∧ a.len ≠ 4 ∧ a.len ≠ 8) ∨ a.off % a.len ≠ 0 ∨ poisoned s loc a.len then s
  else (rmwAt (giveUp s (loc / 64)) (rmwOp (a.kind - 2)) loc a.len (BitVec.ofNat 64 a.data) (BitVec.ofNat 64 a.expected)).2

/-! ## Narrows circuits (R376, R425, R426) -/

/-- A destination end takes the packet that is next in order out of its reorder window, to deliver its tokens, and acknowledges it: so a
packet stays in the source's count until there is room for it (R426). -/
def circuitTake (s : State) (c : Nat) (e : IopEnd) (ts : List Token) : State :=
  let x := circuitAt s c
  let s1 := updCircuit s c (fun x => { x with window := del x.window x.expect, expect := (x.expect + 1) % 65536, deliver := ts })
  if e.pkg = ownPkg s ∨ sysSize s ≤ e.pkg then s1
  else inject s1 { packetTo s e.pkg e.die 1 with circ := some (c, x.expect, []) } false

/-- Delivers a circuit's tokens at its destination end, in order, while there is room; fuel counts them and their packets. -/
def circuitDeliver (c : Nat) : Nat → State → State
  | 0, s => s
  | f + 1, s =>
    let x := circuitAt s c
    match x.dst.bind (fun site => (iopEnd s site c true).map (fun e => (site, e))), x.deliver with
    | none, _ => s
    | some (_, e), [] =>
      match look x.window x.expect with
      | none => s
      | some ts => circuitDeliver c f (circuitTake s c e ts)
    | some (site, e), t :: r =>
      let d := circuitDest s site e
      if roomAt s d = 0 then s
      else circuitDeliver c f (deliver1 (updCircuit s c (fun x => { x with deliver := r })) t d)

/-- Delivers all that there is room for: at most 32 packets of 12 tokens, with those of one already taken. -/
def circuitRun (s : State) (c : Nat) : State := circuitDeliver c 448 s

/-- Whether a token ends a circuit packet. -/
def closesPacket (t : Token) : Bool := t.tag == tDONE || (isStop t.tag && decide (1 ≤ stopLevel t.tag))

/-- Sends the first n tokens of a source end: to the other end in this package, or as a packet. -/
def circuitSend (s : State) (c n : Nat) : State :=
  let x := circuitAt s c
  match x.src.bind (fun site => iopEnd s site c false) with
  | none => s
  | some e =>
    if e.pkg = ownPkg s then
      (if 32 ≤ x.deliver.length then s
       else circuitRun (updCircuit s c (fun x => { x with buf := x.buf.drop n, deliver := x.deliver ++ x.buf.take n })) c)
    else if 32 ≤ x.unacked.length ∨ !injectRoom s 1 ∨ sysSize s ≤ e.pkg then s
    else
      let p : Packet := { packetTo s e.pkg e.die 1 with circ := some (c, x.nextSeq, x.buf.take n) }
      inject (updCircuit s c (fun x => { x with
        buf := x.buf.drop n, nextSeq := (x.nextSeq + 1) % 65536, unacked := x.unacked ++ [(x.nextSeq, x.buf.take n)] })) p true

/-- CIRCUIT_SOURCE_SEND: a source end sends what is due; a destination end delivers what it holds. -/
def circuitSource (s0 : State) (c : Nat) : State :=
  let s := circuitRun s0 c
  let x := circuitAt s c
  match x.src.bind (fun site => iopEnd s site c false) with
  | none => s
  | some e =>
    if x.buf.isEmpty then s
    else if e.pkg = ownPkg s then circuitSend s c x.buf.length
    else
      match x.buf.findIdx? closesPacket with
      | some i => circuitSend s c (min (i + 1) 12)
      | none => if 12 ≤ x.buf.length then circuitSend s c 12 else s

/-- CIRCUIT_FLUSH_TIMER: no token has arrived for 32 cycles. -/
def circuitFlush (s : State) (c : Nat) : State :=
  let x := circuitAt s c
  if x.buf.isEmpty ∨ s.cycle < x.since + 32 then s else circuitSend s c (min x.buf.length 12)

/-- CIRCUIT_PACKET_ARRIVE: within the window of 32 packets it is held for its turn. -/
def circuitArrive (s : State) (c seq : Nat) (ts : List Token) : State :=
  let x := circuitAt s c
  if 65536 ≤ seq ∨ 12 < ts.length ∨ ts.isEmpty ∨ x.dst.isNone ∨ 32 ≤ (seq + 65536 - x.expect) % 65536 then s
  else circuitRun (updCircuit s c (fun x => { x with window := put x.window seq ts })) c

/-- CIRCUIT_ACKNOWLEDGEMENT. -/
def circuitAck (s : State) (c seq : Nat) : State :=
  updCircuit s c (fun x => { x with unacked := x.unacked.filter (fun u => u.1 ≠ seq) })

/-! ## Arrival of packets (R420, R422) -/

/-- Counts in a 16-bit field of a LNKST, saturating. -/
def countLink (s : State) (port lo : Nat) : State :=
  let v := dev s (0x100B00 + 8 * port)
  if bits v (lo + 15) lo = 0xFFFF then s else setDev s (0x100B00 + 8 * port) (BitVec.ofNat 64 (v + 2 ^ lo))

/-- A write of the package whose buddy this one is goes into its mirror (R410). -/
def mirrorServe (s : State) (p : Packet) (a : PeerAcc) : State :=
  let h := dev s 0x100928
  let o := bits h 38 29 * 2 ^ 29 + a.off
  if !bit h 0 ∨ p.src ≠ bits (dev s 0x100900) 13 1 ∨ 2 ^ 39 < o + a.len ∨ a.len = 0 ∨ 128 < a.len then s
  else
    (linePieces (BitVec.ofNat 64 (locHbm o)) a.len).foldl (fun (s : State) x =>
      homeWrite s x.1.toNat (((bytesOfNat a.len a.data).drop (x.1.toNat - locHbm o)).take x.2)) s

/-- PACKET_ARRIVE: credits return; a packet for no package is dropped and counted; one for this package takes effect; another goes on,
from the buffer that its sender had room in. -/
def packetArrive (s0 : State) (port : Nat) (p : Packet) : State :=
  if 12 ≤ port ∨ !linkUp s0 port then s0
  else
    let s := p.ret.foldl (fun (s : State) r =>
      { s with host := { s.host with
          used := setD s.host.used 0 (3 * port + r.1 % 3) (getD s.host.used 0 (3 * port + r.1 % 3) - r.2) } }) s0
    let free (s : State) : State := owe s port (bufOf p) p.len
    if p.reserved ∨ sysSize s ≤ p.dst then free (countLink s port 32)
    else if p.dst ≠ ownPkg s then
      if (if p.e then 4 ≤ bufUsed s port (bufOf p) else 16 < bufUsed s port 0 + p.len) then s
      else { s with host := { s.host with
          pkts := s.host.pkts ++ [{ id := s.host.pktNext, pkt := { p with ret := [] }, dim := port / 4, need := 0, inp := port, link := none,
                                    sent := 0 }]
          pktNext := s.host.pktNext + 1 } }
    else if p.msg.isNone && p.acc.isNone && p.circ.isNone then
      -- a response: the request of its tag is done
      free { s with host := { s.host with asked := s.host.asked.filter (fun a => a.1 ≠ p.tag) } }
    else
      let s := free s
      let s1 := match p.msg with
        | some m => messageArrive s { m with pkg := p.dst, die := p.die }
        | none => s
      let s2 := match p.circ with
        | some (c, seq, []) => circuitAck s1 c seq
        | some (c, seq, ts) => circuitArrive s1 c seq ts
        | none => s1
      match p.acc with
      | none => s2
      | some a =>
        -- the response goes to the die of the requester, from that of the home
        let back : Packet := { packetTo s2 p.src p.sdie (if a.kind = 0 ∧ 64 < a.len then 2 else 1) with
          tag := p.tag, sdie := homeDie (locHbm a.off) }
        let s3 := if p.mirror then mirrorServe s2 p a else peerServe s2 a
        if sysSize s ≤ p.src then s3 else inject s3 back true

end Sys2Proof.Machine
end

