-- ==== Sys2Proof/Machine/Engine.lean ====
section
/-! DEFINITION. The ENG major: commands to copy engines, active messages, matrix-cell commands, configuration and graph
commands, the cancel; and actions held until commit (spec/11 R332-R338, R344, spec/07 R204, R209, R223). -/

namespace Sys2Proof.Machine
open Sys2Proof

/-- How a command stands: performed; no room yet, and where; not yet its turn; refused with a fault. -/
inductive CmdRes where
  | ok (s : State)
  | room (r : RoomIn)
  | later
  | bad (f : FaultInfo)

/-- A command of the current context. What it has done before it waits stands. -/
def command (f : State → CmdRes) : Act Unit := do
  let r ← view f
  match r with
  | .ok s => upd (fun _ => s)
  | .room x => waitKeep (.room x)
  | .later => do let t ← view (·.cycle); waitKeep (.idle (t + 1))
  | .bad x => orTrap (.error x)

/-- The identity of the current task. -/
def myIdent (s : State) : Option Ident := s.cx.task.map identOf

/-- Holds an action until commit. -/
def hold (h : Held) : Act Unit := upd (fun s => { s with cx := { s.cx with held := s.cx.held ++ [h] } })

/-- A command without a result: held in a timestamp task, else a release and then performed; counted (R174, R408). -/
def issue (h : State → Held) (f : State → CmdRes) : Act Flow := do
  let _ ← counted (do
    let ts ← view (fun s => isTs s s.cx)
    if ts then
      let x ← view h
      hold x
    else
      release
      command f
    pure 0)
  pure .next

/-! ## Copies (R332, R333) -/

/-- The engines of a core's cluster. -/
def coreEngines (cid : Nat) : Nat × Nat :=
  let e := 16 * cidDie cid + 2 * (cidCore cid / 16)
  (e, e + 1)

/-- A direct copy of a context. -/
def cmdCpy (cid : Nat) (ident : Option Ident) (super : Bool) (p : BitVec 512) (addr : W64) (s : State) : CmdRes :=
  let (e0, e1) := coreEngines cid
  let few := if (engineAt s e1).copies.length < (engineAt s e0).copies.length then e1 else e0
  let eng := if cpFence p then (ctxOf s cid).lastEng.getD few else few
  if 16 ≤ (engineAt s eng).copies.length then .room (.engine eng)
  else
    match acceptCopy s eng p none super ident (some cid) with
    | .error c => .bad (faultAt c addr)
    | .ok s1 => .ok (updCtx s1 cid (fun c => { c with lastEng := some eng }))

/-- CPY and CPYF, with the packet as the engine is to take it. -/
def cpy (o : OpR) (fibre : Bool) : State → Host.Outcome State Fault Refusal :=
  runR (okS o.x) o (do
    let a ← rdG o.a
    let b ← (if fibre then rdG o.b else pure 0)
    let p0 ← readPacket (o.x.ximm == 1) a
    if fibre && cpKind p0 != 1 then trapAt cCFGBAD a else pure ()
    let p := if fibre then BitVec.ofNat 512 (p0.toNat % 2 ^ 448 + b.toNat * 2 ^ 448) else p0
    issue (fun s => .cpy p s.cx.mode) (fun s => cmdCpy s.cur (myIdent s) s.cx.mode p a s))

def execCpy (o : OpR) : State → Host.Outcome State Fault Refusal := cpy o false
def execCpyf (o : OpR) : State → Host.Outcome State Fault Refusal := cpy o true

/-- CPYQ: the claim is made once, however long the claimed slot has no room. -/
def execCpyq (o : OpR) : State → Host.Outcome State Fault Refusal :=
  runR (okS o.x) o (do
    checkG o.d
    let a ← rdG o.a
    let b ← rdG o.b
    let p ← readPacket (o.x.ximm == 1) a
    let served ← view (fun s => decide (b.toNat < 1024) && (servedBy s b.toNat).isSome)
    if !served then trapAt cCFGBAD a else pure ()
    let ts ← view (fun s => isTs s s.cx)
    let w ← counted (do
      if ts then
        let m ← view (·.cx.mode)
        hold (.cpyq p b m)
        pure (BitVec.allOnes 64)
      else
        let w ← once (do
          let ask ← view (fun s => claimAsk s b.toNat none)
          match ask with
          | some s1 => (fun s => .error (.wait (.room (.claim (b.toNat % 1024))) (some s1)) s)
          | none => pure ()
          release
          let r ← view (fun s => claimSlot s b.toNat)
          match r with
          | .error f => orTrap (.error f)
          | .ok (w, s1) =>
            upd (fun _ => s1)
            pure (BitVec.ofNat 64 w))
        let ask ← view (fun s => claimAsk s b.toNat (some w.toNat))
        match ask with
        | some s1 => (fun s => .error (.wait (.room (.queue (b.toNat % 1024))) (some s1)) s)
        | none => pure ()
        command (fun s =>
          match fillSlot s b.toNat w.toNat p s.cx.mode (myIdent s) with
          | .bad f => .bad f
          | .room => .room (.queue (b.toNat % 1024))
          | .done _ s1 => .ok s1)
        pure w)
    wrG o.d w
    pure .next)

/-! ## Active messages (R334) -/

/-- The message of a record, payload and destination word. -/
def messageOf (p : BitVec 512) (payload : List Byte) (b : W64) (super : Bool) : Message :=
  { pkg := bits b.toNat 14 2, die := bits b.toNat 1 0, packet := p, payload := payload, super := super }

/-- The payload lines after a record. -/
def readPayload (sp : Bool) (a : W64) : Nat → Act (List Byte)
  | 0 => pure []
  | n + 1 => do
    let l ← loadWhole sp a 64
    let r ← readPayload sp (a + 64) n
    pure (l ++ r)

def execMsend (o : OpR) : State → Host.Outcome State Fault Refusal :=
  runR (okS o.x) o (do
    let a ← rdG o.a
    let b ← rdG o.b
    let sp := o.x.ximm == 1
    let p ← readPacket sp a
    let bad ← view (fun s => bits b.toNat 63 19 != 0 || decide (sysSize s ≤ bits b.toNat 14 2) || spawnBad s p false)
    if bad then trapAt cCFGBAD a else pure ()
    let pay ← readPayload sp (a + 64) (bits b.toNat 18 15)
    let ts ← view (fun s => isTs s s.cx)
    let own ← view (fun s => decide (bits b.toNat 14 2 = ownPkg s))
    if !ts && !own then mirrorGate else pure ()
    issue (fun s => .msend p pay b s.cx.mode) (fun s =>
      match sendMessage s (messageOf p pay b s.cx.mode) false with
      | .ok s1 => .ok s1
      | .error r => .room r))

/-! ## Configuration and graph commands (R335-R337) -/

/-- The check of a placement base. -/
def baseOk (a : W64) : Bool := decide (a.toNat < 2 ^ 32) && a.toNat % 2 ^ 18 == 0

/-- A configuration command joins its context's list. -/
def cfgAdd (s : State) (cid : Nat) (op : CfgOp) (base : W64) (pc : W64) (ir : List W32) (ident : Option Ident) (super : Bool) : State :=
  updCtx s cid (fun c => { c with
    cfg := c.cfg ++ [{ op := op, base := base.toNat, pc := pc, ir := ir, ident := ident, super := super }] })

def execCfgw (o : OpR) : State → Host.Outcome State Fault Refusal :=
  runR (okNeg o.x) o (do
    let a ← rdG o.a
    let b ← rdG o.b
    if !baseOk a then trapAt cADDR a
    else if b.toNat / 2 ^ 32 ≠ 0 then trapAt cCFGBAD a
    else
      let add (s : State) : CmdRes := .ok (cfgAdd s s.cur (.word b) a s.cx.pc s.cx.ir (myIdent s) s.cx.mode)
      issue (fun s => .cfgw a b s.cx.mode) add)

def execCfgs (o : OpR) : State → Host.Outcome State Fault Refusal :=
  runR (okNeg o.x) o (do
    let a ← rdG o.a
    let b ← rdG o.b
    if !baseOk b then trapAt cADDR b
    else
      let add (s : State) : CmdRes := .ok (cfgAdd s s.cur (.stream a none 0) b s.cx.pc s.cx.ir (myIdent s) s.cx.mode)
      issue (fun s => .cfgs a b s.cx.mode) add)

/-- A command on the graph of a base, once the context's earlier commands are wholly applied. -/
def onGraph (cid : Nat) (base : W64) (f : Graph → State → CmdRes) (s : State) : CmdRes :=
  if !cfgDone s cid then .later
  else
    match look s.fab.graphs base.toNat with
    | none => .bad (faultAt cCFGBAD base)
    | some g => f g s

def cmdGstart (cid : Nat) (base : W64) : State → CmdRes := onGraph cid base (fun _ s => .ok (graphStart s base.toNat))

/-- The mark by which later commands of the context wait. -/
def markGraph (s : State) (cid : Nat) (base : W64) (ident : Option Ident) (super : Bool) : State :=
  cfgAdd s cid .graph base 0 [] ident super

def cmdGfrz (cid : Nat) (base fut : W64) (round super : Bool) (ident : Option Ident) : State → CmdRes :=
  onGraph cid base (fun g s =>
    if g.rbuf = 0 ∨ (round ∧ !g.rmk) then .bad (faultAt cCFGBAD base)
    else if g.freezing.isSome ∨ g.thawing.isSome then .later
    else .ok (markGraph (beginFreeze s base.toNat fut round) cid base ident super))

def cmdGthaw (cid : Nat) (base fut : W64) (super : Bool) (ident : Option Ident) : State → CmdRes :=
  onGraph cid base (fun g s =>
    if g.freezing.isSome ∨ g.thawing.isSome then .later
    else .ok (markGraph (updGraph s base.toNat (fun g => { g with thawing := some fut })) cid base ident super))

def execGstart (o : OpR) : State → Host.Outcome State Fault Refusal :=
  runR (okNeg o.x) o (do
    let a ← rdG o.a
    if !baseOk a then trapAt cADDR a
    else issue (fun _ => .gstart a) (fun s => cmdGstart s.cur a s))

/-- GFRZ and GFRZ.ROUND. -/
def gfrz (o : OpR) (round : Bool) : State → Host.Outcome State Fault Refusal :=
  runR (okNeg o.x) o (do
    let a ← rdG o.a
    let b ← rdG o.b
    if !baseOk a then trapAt cADDR a
    else issue (fun s => .gfrz a b round s.cx.mode) (fun s => cmdGfrz s.cur a b round s.cx.mode (myIdent s) s))

def execGfrz (o : OpR) : State → Host.Outcome State Fault Refusal := gfrz o false
def execGfrzRound (o : OpR) : State → Host.Outcome State Fault Refusal := gfrz o true

def execGthaw (o : OpR) : State → Host.Outcome State Fault Refusal :=
  runR (okNeg o.x) o (do
    let a ← rdG o.a
    let b ← rdG o.b
    if !baseOk a then trapAt cADDR a
    else issue (fun s => .gthaw a b s.cx.mode) (fun s => cmdGthaw s.cur a b s.cx.mode (myIdent s) s))

/-- A command word queued at a cell. -/
def cmdMxop (cid : Nat) (site cmd : W64) (super : Bool) (s : State) : CmdRes :=
  let key := siteKey site.toNat
  if !cfgDone s cid then .later
  else if (graphAt s key).isNone then .bad (faultAt cCFGBAD site)
  else if 8 ≤ (cellAt s key).cmds.length then .room (.cell key)
  else .ok (updCell s key (fun c => { c with cmds := c.cmds ++ [{ cmd := cmd, super := super }] }))

def execMxop (o : OpR) : State → Host.Outcome State Fault Refusal :=
  runR (okNeg o.x) o (do
    let a ← rdG o.a
    let b ← rdG o.b
    let mc ← view (fun s => siteKind s (a.toNat / 2 ^ 30 % 4) (a.toNat / 2 ^ 18 % 4096) == 0xA)
    if !baseOk a || !mc then trapAt cADDR a
    else if 2 < bits b.toNat 3 0 ∨ bits b.toNat 31 11 ≠ 0 then trapAt cCFGBAD a
    else
      let r ← issue (fun s => .mxop a b s.cx.mode) (fun s => cmdMxop s.cur a b s.cx.mode s)
      markExposed
      pure r)

/-! ## The cancel (R223, R338) -/

/-- The cancel of the running job: REASON, DONE clear, and a cancel on its way to every Dispatcher. -/
def cancelJob (s : State) (reason : W64) : State :=
  let s1 := setDev s 0x100700 (BitVec.ofNat 64 (bits reason.toNat 15 0 * 2 ^ 16))
  (range' 0 4).foldl (fun s d => updDisp s d (fun x => { x with cancelDue := true })) s1

def execJcancel (o : OpR) : State → Host.Outcome State Fault Refusal :=
  runR (okNeg o.x) o (do
    let b ← rdG o.b
    issue (fun _ => .jcancel b) (fun s => .ok (cancelJob s b)))

/-! ## Actions held until commit (R204, R209, R344) -/

/-- The contexts within the instance of a scope 1 CORE to 5 SYSTEM of a context (Table 6-1). -/
def inScope (cid scope c : Nat) : Bool :=
  match scope with
  | 0 => coreOf cid == coreOf c
  | 1 => coreOf cid == coreOf c
  | 2 => clusterOf (coreOf cid) == clusterOf (coreOf c)
  | 3 => cidDie cid == cidDie c
  | _ => true

/-- SEV's effect: the event flags within a scope. Contexts never used hold the flag as well. -/
def sevAll (s : State) (cid scope : Nat) : State :=
  ((range' 0 4096).filter (inScope cid scope)).foldl (fun s c => updCtx s c (fun x => { x with ev := true })) s

/-- The answer of a command at commit: performed, or blocked; a refusal is recorded against the graph or as one of a
queue. -/
def atCommit (r : CmdRes) (no : FaultInfo → State) : Option State :=
  match r with
  | .ok s1 => some s1
  | .room _ => none
  | .later => none
  | .bad f => some (no f)

/-- One action of an ended task is issued at its commit; none while it is blocked. -/
def performHeld (s : State) (cid : Nat) (t : Task) (h : Held) : Option State :=
  let die := cidDie cid
  let id := some (identOf t)
  let graph (base : W64) (f : FaultInfo) : State := graphFault s base.toNat f
  match h with
  | .spawn p ts csc gang =>
    if spawnFull s cid t.tid.dom p ts gang then none else some (launchSpawn s cid t.tid.dom p ts csc none false gang)
  | .msend p pay b super => (sendMessage s (messageOf p pay b super) true).toOption
  | .cpy p super => atCommit (cmdCpy cid id super p 0 s) (fun f => refuse s die 0 1 0 f)
  | .cpyq p q super =>
    if (claimLacks s q.toNat none).isSome then none else
    match claimSlot s q.toNat with
    | .error f => some (refuse s die (q.toNat % 1024) 1 0 f)
    | .ok (w, s1) =>
      match fillSlot s1 q.toNat w p super id with
      | .bad f => some (refuse s die (q.toNat % 1024) 1 w f)
      | .room => none
      | .done _ s2 => some s2
  | .mxop site cmd super => atCommit (cmdMxop cid site cmd super s) (graph site)
  | .cfgw base w super => some (cfgAdd s cid (.word w) base 0 [] id super)
  | .cfgs va base super => some (cfgAdd s cid (.stream va none 0) base 0 [] id super)
  | .gstart base => atCommit (cmdGstart cid base s) (graph base)
  | .gfrz base fut round super => atCommit (cmdGfrz cid base fut round super id s) (graph base)
  | .gthaw base fut super => atCommit (cmdGthaw cid base fut super id s) (graph base)
  | .jcancel reason => some (cancelJob s reason)
  | .sev scope => some (sevAll s cid scope)
  | .gleave loc arrived => some (groupLeave s loc arrived)
  | .hnote v => some (match regWrite s 0x100A08 8 v.toNat with
      | .ok s1 => s1
      | .error _ => s)
  | .toks _ [] => some s
  | .toks key (x :: r) =>
    if hasRoom s (endpDests s key) then
      (if r.isEmpty then some (deliver s (endpDests s key) x) else none)
    else none

/-- What an action that is not issued yet does: the first token of a hold leaves when it has room, and the rest stays (R291); the engine
of a queue asks for its translation (R32). -/
def heldStep (s : State) (h : Held) : Option (Held × State) :=
  match h with
  | .cpyq _ q _ => (claimAsk s q.toNat none).map (fun s1 => (h, s1))
  | .toks key (x :: y :: r) =>
    if hasRoom s (endpDests s key) then some (.toks key (y :: r), deliver s (endpDests s key) x) else none
  | _ => none

end Sys2Proof.Machine
end

