-- ==== Sys2Proof/Machine/System.lean ====
section
/-! DEFINITION. The SYS major and SYNCI: traps, the return from one, system registers, events, translation invalidation,
and the cache instructions (spec/11 R339-R343, spec/08 R226-R228, spec/13 R401). -/

namespace Sys2Proof.Machine
open Sys2Proof

/-! ## Traps (R339) -/

/-- A trap with a cause outside those of faults; epc lies some bytes beyond the instruction's address. -/
def softTrap (cause skip : Nat) : Act Flow := halt (.trap { faultAt cause 0 with skip := skip } none)

/-- TRAP: epc is the address after it. -/
def execTrap (o : OpR) : State → Host.Outcome State Fault Refusal :=
  runR (okNeg o.x) o (softTrap (0x100 + o.b.toNat) (lenX o.x.has))

/-- BRK: epc is the BRK itself. -/
def execBrk (o : OpR) : State → Host.Outcome State Fault Refusal :=
  runR (okNeg o.x) o (softTrap (0x140 + o.b.toNat) 0)

/-- In U mode an instruction of S mode raises PRIV. -/
def needS : Act Unit := do
  let m ← view (·.cx.mode)
  if m then pure () else trapAt cPRIV 0

/-- ERET (R339, R401): a transfer of control to epc, which R229 checks. -/
def execEret (o : OpR) : State → Host.Outcome State Fault Refusal :=
  runR (okNeg o.x) o (do
    needS
    needFrontier
    let e ← view (·.cx.epc)
    if e.toNat % 4 ≠ 0 then trapAt cALIGN e else pure ()
    upd returnTrap
    pure (.jump e))

/-! ## System registers (R226, R227, R340) -/

/-- Whether a register is of S mode alone: cause, epc, fault. -/
def sysOnlyS (n : Nat) : Bool := decide (9 ≤ n) && decide (n ≤ 11)

def execMfs (o : OpR) : State → Host.Outcome State Fault Refusal :=
  runR (okNeg o.x) o (do
    checkG o.d
    let n := o.a.toNat
    let v ← view (fun s => sysView s n)
    let m ← view (·.cx.mode)
    match v with
    | none => trapAt cILLEGAL 0
    | some x =>
      if sysOnlyS n && !m then trapAt cPRIV 0 else pure ()
      -- a read of front acquires the commits that it shows (R183)
      if n = 3 then acquire 5 else pure ()
      wrG o.d x
      pure .next)

/-- The cause that an MTS to a register raises in a mode, if any (R226). -/
def mtsBad (n : Nat) (super : Bool) : Option Nat :=
  if [0, 1, 2, 3, 8, 12, 13].contains n then some cILLEGAL
  else if [4, 5, 6, 7, 10].contains n then (if super then none else some cPRIV)
  else if [9, 11].contains n then (if super then some cILLEGAL else some cPRIV)
  else if 16 ≤ n ∧ n ≤ 18 then none
  else some cILLEGAL

/-- What MTS writes: of status, POL of the core and PMODE (R227); of a loop counter, its 32 bits. -/
def sysWrite (s : State) (n : Nat) (v : W64) : State :=
  match n with
  | 4 => { s with cx := { s.cx with fb := v } }
  | 5 => { s with cx := { s.cx with bsp := v } }
  | 6 => { s with cx := { s.cx with bsl := v } }
  | 7 =>
    let s1 := updCore s (coreOf s.cur) (fun c => { c with pol := v.setWidth 4 })
    { s1 with cx := { s1.cx with pmode := v.getLsbD 5 } }
  | 10 => { s with cx := { s.cx with epc := v } }
  | 16 => { s with cx := { s.cx with lc := setD s.cx.lc 0 0 (v.setWidth 32) } }
  | 17 => { s with cx := { s.cx with lc := setD s.cx.lc 0 1 (v.setWidth 32) } }
  | 18 => { s with cx := { s.cx with lc := setD s.cx.lc 0 2 (v.setWidth 32) } }
  | _ => s

def execMts (o : OpR) : State → Host.Outcome State Fault Refusal :=
  runR (okNeg o.x) o (do
    let m ← view (·.cx.mode)
    match mtsBad o.d.toNat m with
    | some c => trapAt c 0
    | none =>
      let b ← rdG o.b
      needFrontier
      upd (fun s => sysWrite s o.d.toNat b)
      pure .next)

/-- NOP. -/
def execNop (o : OpR) : State → Host.Outcome State Fault Refusal := runR (okNeg o.x) o (pure .next)

/-! ## Events (R341) -/

/-- WFE: a timeout leaves got, so that the WFE then ends. -/
def execWfe (o : OpR) : State → Host.Outcome State Fault Refusal :=
  runR (okNeg o.x) o (do
    let b ← rdG o.b
    let c ← view (·.cx)
    if c.ev || c.got.isSome then
      upd (fun s => { s with cx := { s.cx with ev := false } })
      pure .next
    else
      let t ← view (·.cycle)
      waitFor (.event (if b = 0 then none else some (t + b.toNat))))

def execSev (o : OpR) : State → Host.Outcome State Fault Refusal :=
  runR (okScp o.x) o (do
    let sc := scopeOf o.x 1
    let ts ← view (fun s => isTs s s.cx)
    if ts then hold (.sev sc) else upd (fun s => sevAll s s.cur sc)
    pure .next)

/-- IDLE: once it has begun, got is set, so that it ends when its delay has. -/
def execIdle (o : OpR) : State → Host.Outcome State Fault Refusal :=
  runR (okNeg o.x) o (do
    let b ← rdG o.b
    let s ← view id
    if s.cx.got.isSome then pure .next
    else
      let n := max 1 (bits b.toNat 15 0)
      halt (.wait (.idle (s.cycle + n)) (some { s with cx := { s.cx with got := some 0 } })))

/-! ## Translation invalidation (R34, R342) -/

/-- What the forms of TLBINV share. -/
def tlbinv (o : OpR) (rd : Act (W64 × W64)) (f : W64 → W64 → State → State) : State → Host.Outcome State Fault Refusal :=
  runR (okNeg o.x) o (do
    needS
    let (a, b) ← rd
    needFrontier
    release
    upd (f a b)
    pure .next)

/-- The entries of a VA range of n bytes, modulo 2^57. -/
def invalVas (a : W64) (n : Nat) (s : State) : State :=
  let lo := a.toNat % 2 ^ 57
  if n = 0 then s
  else if 2 ^ 57 ≤ n then invalAll s
  else if lo + n ≤ 2 ^ 57 then invalRange s lo n
  else invalRange (invalRange s lo (2 ^ 57 - lo)) 0 (lo + n - 2 ^ 57)

def execTlbinvAll (o : OpR) : State → Host.Outcome State Fault Refusal :=
  tlbinv o (pure (0, 0)) (fun _ _ => invalAll)

def execTlbinvVa (o : OpR) : State → Host.Outcome State Fault Refusal :=
  tlbinv o (do let a ← rdG o.a; pure (a, 0)) (fun a _ => invalVas a 1)

def execTlbinvRng (o : OpR) : State → Host.Outcome State Fault Refusal :=
  tlbinv o (do let a ← rdG o.a; let b ← rdG o.b; pure (a, b)) (fun a b => invalVas a b.toNat)

/-! ## Cache instructions (R343) -/

/-- Where a VA of a leaf lies, whatever its permissions; nowhere for a device register. -/
def leafLoc (s : State) (e : TlbEnt) (va : Nat) : Option Nat :=
  let leaf := e.leaf.toNat
  let pa := bits leaf 51 e.bits * 2 ^ e.bits + va % 2 ^ e.bits
  match bits leaf 7 6 with
  | 0 => some (locHbm (pa % 2 ^ 39))
  | 1 => some (locHost pa)
  | 2 => some (if pa / 2 ^ 39 = ownPkg s then locHbm (pa % 2 ^ 39) else locPeer (pa / 2 ^ 39) (pa % 2 ^ 39))
  | _ => none

/-- The locations of a VA range as the current context translates it, as runs of bytes: what has no translation names no line. A page
that the TLBs do not hold waits for its walk (R30). The fuel counts pages. -/
def rangeRuns : Nat → Nat → Nat → Act (List (Nat × Nat))
  | 0, _, _ => pure []
  | f + 1, va, e => do
    let past := va / 2 ^ 16 * 2 ^ 16 + 2 ^ 16
    if e ≤ va then pure []
    else if !canon (BitVec.ofNat 64 va) then rangeRuns f past e
    else
      let r ← view (fun s => coreLeaf s s.cur va)
      match r with
      | .walks s1 => fun s => .error (.wait (.walk (pageOf va)) (some s1)) s
      | .faults => rangeRuns f past e
      | .held t s1 =>
        upd (fun _ => s1)
        let nx := va / 2 ^ t.bits * 2 ^ t.bits + 2 ^ t.bits
        let rest ← rangeRuns f nx e
        let here ← view (fun s => leafLoc s t va)
        pure (match here with
          | none => rest
          | some l => (l, min e nx - va) :: rest)

/-- Whether a line is one that a range names; a length of 0 names every line. -/
def inRange (runs : List (Nat × Nat)) (b : W64) (line : Nat) : Bool :=
  b == 0 || runs.any (fun r => decide (64 * line < r.1 + r.2) && decide (r.1 < 64 * line + 64))

/-- The runs of the range [a, a + b) as the current context sees them. -/
def runsOf (a b : W64) : Act (List (Nat × Nat)) :=
  if b = 0 then pure [] else rangeRuns (b.toNat / 2 ^ 16 + 2) a.toNat (min (a.toNat + b.toNat) (2 ^ 64))

/-- CINV. -/
def execCinv (o : OpR) : State → Host.Outcome State Fault Refusal :=
  runR (okNeg o.x) o (do
    let a ← rdG o.a
    let b ← rdG o.b
    let r ← runsOf a b
    upd (fun s =>
      updCore s (coreOf s.cur) (fun c => { c with l1d := c.l1d.filter (fun l => !inRange r b l.line) }))
    pure .next)

/-- CWB: the lines of the range that an atomic engine holds are recalled. -/
def execCwb (o : OpR) : State → Host.Outcome State Fault Refusal :=
  runR (okNeg o.x) o (do
    let a ← rdG o.a
    let b ← rdG o.b
    let r ← runsOf a b
    upd (fun s =>
      let ls := s.clusters.flatMap (fun c => (c.2.lines.map (·.line)).filter (inRange r b))
      ls.foldl recallLine s)
    pure .next)

/-- SYNCI. -/
def execSynci (o : OpR) : State → Host.Outcome State Fault Refusal :=
  runR (okNeg o.x) o (do
    let a ← rdG o.a
    let b ← rdG o.b
    let r ← runsOf a b
    release
    upd (fun s =>
      updCore s (coreOf s.cur) (fun c => { c with icache := c.icache.filter (fun l => !inRange r b l.line) }))
    pure .next)

end Sys2Proof.Machine
end

