-- ==== Sys2Proof/Machine/Waits.lean ====
section
/-! DEFINITION. Steps that end the waits of contexts, commit timestamp tasks, and start tasks on contexts (spec/02 R48, spec/07
R182-R207, spec/09 R280, R287, spec/11 R329-R341). -/

namespace Sys2Proof.Machine
open Sys2Proof

/-! ## Posted atomics and the queues that hold them (R53, R55, R280) -/

/-- POSTED_ATOMIC_PERFORMED: the oldest posted atomic of a context is performed once its home reaches it. -/
def postedStep (s : State) (cid : Nat) : State :=
  match (ctxOf s cid).posted with
  | [] => s
  | p :: _ =>
    let loc := 64 * p.line
    if loc < 2 ^ 32 then
      let k := 3 * siteKey loc
      match (nodeAt s k).inflight.find? (fun e => e.1.cid = some cid ∧ e.1.loc / 64 = p.line) with
      | some e => settleWord s e.1.loc
      | none =>
        match bankHead s k false with
        | some r => if r.cid = some cid ∧ r.loc / 64 = p.line then serveReq (settleWord (popBank s k false) r.loc) none r else s
        | none => s
    else
      let cl := clusterOf (coreOf cid)
      match aePick s cl with
      | some (_, r) => if r.cid = some cid then aeStep s cl else s
      | none => s

/-! ## The ends of waits -/

/-- Whether what a context waits for has room now, for an instruction that is then tried again (R192). -/
def roomNow (s : State) (cid : Nat) : RoomIn → Bool
  | .queue q =>
    let w := ((ctxOf s cid).got.getD 0).toNat
    !claimAsked s q (some w) && (match fillSlot s q w 0 false none with
      | .room => false
      | _ => true)
  | .engine e => decide ((engineAt s e).copies.length < 16)
  | .cell k => decide ((cellAt s k).cmds.length < 8)
  | .link n => injectRoom s n
  | .peer n => injectRoom s n
  | .bank k => decide ((nodeAt s k).portM.length < 16)
  | .port cl p => decide ((getD (clusterAt s cl).ports [] p).length < 8)
  | .claim q => !claimAsked s q none
  | .spill die => !spillFull s die
  | .dir line wr =>
    match (ctxOf s cid).task with
    | none => true
    | some t =>
      match dirNote line t.tid wr (s.live.length + 1) s with
      | .waits => false
      | _ => true

/-- Ends a context's wait. -/
def wake (s : State) (cid : Nat) : State := updCtx s cid (fun c => { c with wait := none })

/-- Ends a context's wait and its instruction with it. -/
def wakeDone (s : State) (cid : Nat) : State := updCtx s cid (fun c => { c with wait := none, got := some 0 })

/-- Whether an element, a token or room has come to a port. -/
def portReady (s : State) (c : Ctx) (n : Nat) : Bool :=
  let p := portAt c n
  match p.bind with
  | .channel e key =>
    if ew e 4 4 = 0 then !((endpAt s key).kept ++ (endpAt s key).buf).isEmpty || !p.ahead.isEmpty || p.done else hasRoom s (endpDests s key)
  | _ => true

/-- PORT_STALL_RESUME (R239, R291): the instruction is tried again. -/
def portResume (s : State) (cid : Nat) : State :=
  match (ctxOf s cid).wait with
  | some (.port n) => if portReady s (ctxOf s cid) n then wake s cid else s
  | _ => s

/-- LDF_RETRY. -/
def ldfRetry (s : State) (cid : Nat) : State :=
  match (ctxOf s cid).wait with
  | some (.tagRetry t) => if t ≤ s.cycle then wake s cid else s
  | _ => s

/-- The bytes of an object as the task that waits on it reads them (R62, R203). -/
def seenBytes (s : State) (cid loc n : Nat) : List Byte :=
  let x : Xl := { va := 0, t := 0, pa := loc, loc := loc, c := false, o := (srgn s loc).1, p := false, hp := false }
  match loadOver x n (fun _ s => let r := homeRead s loc n; .ok r.1 r.2) (focus s cid) with
  | .ok bs _ => bs
  | .error _ _ => (homeRead s loc n).1

/-- BARWAIT_RELEASE: the phase has flipped. -/
def barRelease (s : State) (cid : Nat) : State :=
  match (ctxOf s cid).wait with
  | some (.barrier loc ph) => if bit (natOfBytes (seenBytes s cid loc 16)) 96 != ph then wakeDone s cid else s
  | _ => s

/-- GWAIT_RELEASE. -/
def groupRelease (s : State) (cid : Nat) : State :=
  match (ctxOf s cid).wait with
  | some (.group loc ph) =>
    match groupOf (seenBytes s cid loc 16) with
    | some (_, _, p, _) => if p != ph then wakeDone s cid else s
    | none => wake s cid
  | _ => s

/-- RAWAIT_RELEASE: a slot is filled. -/
def ringRelease (s : State) (cid : Nat) : State :=
  match (ctxOf s cid).wait with
  | some (.ring loc) =>
    match ringOf (seenBytes s cid loc 32) with
    | some r => if r.wp != r.rp then wake s cid else s
    | none => wake s cid
  | _ => s

/-- WFE_WAKE: the WFE is tried again, and clears the flag. -/
def wfeWake (s : State) (cid : Nat) : State :=
  match (ctxOf s cid).wait with
  | some (.event _) => if (ctxOf s cid).ev then wake s cid else s
  | _ => s

/-- WFE_TIMEOUT. -/
def wfeTimeout (s : State) (cid : Nat) : State :=
  match (ctxOf s cid).wait with
  | some (.event (some t)) => if t ≤ s.cycle then wakeDone s cid else s
  | _ => s

/-- IDLE_EXPIRE. -/
def idleExpire (s : State) (cid : Nat) : State :=
  match (ctxOf s cid).wait with
  | some (.idle t) => if t ≤ s.cycle then wake s cid else s
  | _ => s

/-- FRONTIER_REACHED (R186, R322): the instruction that waits is tried again; a task marked dropped is dropped. -/
def frontierReached (s : State) (cid : Nat) : State :=
  let c := ctxOf s cid
  if !isFront s c then s
  else
    match c.wait, c.task with
    | some .frontier, _ => wake s cid
    | some .dropped, some t => dropTask s t.tid
    | _, _ => s

/-- DEFERRED_FAULT_DELIVERY (R207). -/
def deferredDeliver (s : State) (cid : Nat) : State :=
  let c := ctxOf s cid
  if !isFront s c then s
  else
    match c.wait with
    | some (.deferred x) => withCtx s cid (fun s => deliverTrap s x)
    | _ => s

/-- JOURNAL_CHUNK_WAIT_TIMEOUT (R206). -/
def chunkTimeout (s : State) (cid : Nat) : State :=
  match (ctxOf s cid).wait with
  | some (.chunk t ea) =>
    if t + 2 ^ 20 ≤ s.cycle then
      withCtx s cid (fun s => takeTrap s { f := faultAt cSPILL ea, pc := s.cx.pc, ir := s.cx.ir })
    else s
  | _ => s

/-- How many elements a pattern binding reads ahead (R287). -/
def aheadMax (d : BitVec 256) : Nat := if db d 194 194 = 1 then 2 else 8

/-- PATTERN_READAHEAD (R287): a read ahead that faults or waits leaves nothing. -/
def readAheadPort (s : State) (cid n : Nat) : State :=
  let p := portAt (ctxOf s cid) n
  match (ctxOf s cid).task, p.bind with
  | some _, .pattern d =>
    if db d 192 192 = 0 ∧ p.ahead.length < aheadMax d ∧ p.pos + p.ahead.length < patCount d then
      withCtx s cid (fun s =>
        match patRead n d (p.pos + p.ahead.length) s with
        | .ok v s1 =>
          let q : Port := { portAt s1.cx n with ahead := (portAt s1.cx n).ahead ++ [v] }
          { s1 with cx := { s1.cx with ports := put s1.cx.ports n q } }
        | .error (.gone s1) _ => s1
        | .error _ _ => s)
    else s
  | _, _ => s

/-! ## Commit (R182, R204) -/

/-- TS_COMMIT: the ended frontier task of a domain starts its commit; its lines go to their homes. -/
def commitBegin (s : State) (dom : Nat) : State :=
  match frontier s dom with
  | none => s
  | some t =>
    match s.ended.find? (fun e => e.tid = t) with
    | none => s
    | some e =>
      if (domainAt s dom).commit.isSome then s
      else
        let s1 := { s with ended := s.ended.map (fun x => if x.tid = t then { x with sb := [] } else x) }
        updDomain (e.sb.foldl (fun s l => publishLine s (coreOf e.cid) l) s1) dom (fun d => { d with commit := some t })

/-- Issues held actions in order, until one has no room: what is left, and the package. -/
def issueHeld (cid : Nat) (t : Task) : List Held → State → List Held × State
  | [], s => ([], s)
  | h :: r, s =>
    match performHeld s cid t h with
    | some s1 => issueHeld cid t r s1
    | none =>
      match heldStep s h with
      | some (h', s1) => (h' :: r, s1)
      | none => (h :: r, s)

/-- Whether a commit at SYSTEM scope waits for its mirror point (R410). -/
def endGate (s : State) (e : Ended) : Bool :=
  bit (dev s 0x100900) 0 && decide (e.csc = 4) &&
    !(match e.point with
      | some n => decide (n ≤ s.host.pointsDone)
      | none => false)

/-- TS_COMMIT_COMPLETE: held actions are issued and holds sent as room comes; then the commit ends, its records leave,
and front advances. -/
def commitEnd (s : State) (dom : Nat) : State :=
  match (domainAt s dom).commit with
  | none => s
  | some t =>
    match s.ended.find? (fun e => e.tid = t), s.live.find? (fun l => l.task.tid = t) with
    | some e, some l =>
      let r := issueHeld e.cid l.task (e.held ++ e.holds.map (fun h => .toks h.1 h.2)) s
      let keep (f : Ended → Ended) (s : State) : State :=
        { s with ended := s.ended.map (fun x => if x.tid = t then f x else x) }
      if !r.1.isEmpty then keep (fun x => { x with held := r.1, holds := [] }) r.2
      else if endGate s e then
        keep (fun x => { x with held := [], holds := [], point := some (e.point.getD (s.host.points + 1)) }) r.2
      else
        let s1 : State := { r.2 with
          ended := r.2.ended.filter (fun x => x.tid ≠ t), live := r.2.live.filter (fun x => x.task.tid ≠ t) }
        let s2 := dropRecords s1 t
        updDomain s2 dom (fun d => { d with lastTs := some t.ts, commit := none })
    | _, _ => updDomain s dom (fun d => { d with commit := none })

/-! ## The start of a task (R193, R194) -/

/-- The context area of a context, and its entry of the globals block. -/
def areaOf (s : State) (cid : Nat) : W64 :=
  (BitVec.ofNat 57 (bits (dev s 0x100608) 56 16 * 2 ^ 16 + 65536 * cid)).signExtend 64
def globOf (s : State) (cid : Nat) : W64 :=
  (BitVec.ofNat 57 (bits (dev s 0x100740) 56 17 * 2 ^ 17 + 32 * cid)).signExtend 64

/-- The argument line: the argument record and the launch coordinates (Table 7-2). -/
def argLine (t : Task) : List Byte :=
  (bytesOfNat 64 t.packet.toNat).drop 16 ++ bytesOfNat 4 t.x ++ bytesOfNat 4 t.y ++ bytesOfNat 4 t.lin ++ bytesOfNat 4 0

/-- The pointers that the walks of a start leave: of its area, and of its globals block (R29). -/
def startNote (s : State) (cid : Nat) : State :=
  let s1 := walkNote s (cidDie cid) (areaOf s cid).toNat
  if bit (dev s 0x100740) 0 then walkNote s1 (cidDie cid) (globOf s cid).toNat else s1

/-- Writes the argument line to the area; a fault is the task's, at its first instruction (DEDUCED, log 25). -/
def writeArgs (s0 : State) (cid : Nat) (t : Task) : State × Option FaultInfo :=
  let s := startNote s0 cid
  match agtXl s (cidDie cid) (areaOf s cid) .wr 64 64 t.super with
  | .error f => (s, some f)
  | .ok x => if linkDown s x then (s, some (faultAt cECC (areaOf s cid))) else (homeWrite s x.loc (argLine t), none)

/-- One of g4 to g7 from the globals block. -/
def readGlob (s : State) (cid : Nat) (super : Bool) (i : Nat) : Except FaultInfo W64 :=
  let va := globOf s cid + BitVec.ofNat 64 (8 * i)
  match agtXl s (cidDie cid) va .rd 8 8 super with
  | .error f => .error f
  | .ok x =>
    if linkDown s x ∨ poisoned s x.loc 8 then .error (faultAt cECC va)
    else .ok (BitVec.ofNat 64 (natOfBytes (homeRead s x.loc 8).1))

/-- The globals of a context, and the fault of the first read that faults. -/
def globals (s : State) (cid : Nat) (super : Bool) : List W64 × Option FaultInfo :=
  if !bit (dev s 0x100740) 0 then ([0, 0, 0, 0], none)
  else
    let rs := (range' 0 4).map (readGlob s cid super)
    (rs.map (fun r => match r with | .ok v => v | .error _ => 0),
     rs.findSome? (fun r => match r with | .ok _ => none | .error f => some f))

/-- TASK_START: the registers of R193. Its start acquires (R174): its core's L1 is dropped. -/
def startTask (s : State) (cid : Nat) : State :=
  match (ctxOf s cid).task with
  | none => s
  | some t =>
    if !(ctxOf s cid).starting then s
    else
      let a := areaOf s cid
      let (s1, f1) := writeArgs s cid t
      let (gs, f2) := globals s1 cid t.super
      let g0 : FMap W64 := setD (setD [] 0 2 (a + 65536)) 0 3 a
      let g := (range' 0 4).foldl (fun m i => setD m 0 (4 + i) (gs.getD i 0)) g0
      updCtx (l1Drop s1 (coreOf cid)) cid (fun c => { c with
        starting := false, wait := none, got := none, pc := pcOf t.entry, ir := [], g := g, phys := [], v := [], p := [], k := [], lc := []
        fb := 0, bsp := a + 64, bsl := a + 32768, size := 40, rlo := 0, mode := t.super, pmode := false
        fault := 0xFFFFFFFF, ports := [], group := none
        walked := [], refill := .none
        trapNext := (f1.or f2).toList.map (fun f => { f := f, pc := pcOf t.entry, ir := [] }) })

/-! ## The events -/

def execPostedAtomicPerformed (cid : Nat) : State → Host.Outcome State Fault Refusal := runEvent (fun s => postedStep s cid)
def execPatternReadahead (cid port : Nat) : State → Host.Outcome State Fault Refusal := runEvent (fun s => readAheadPort s cid port)
def execPortStallResume (cid : Nat) : State → Host.Outcome State Fault Refusal := runEvent (fun s => portResume s cid)
def execLdfRetry (cid : Nat) : State → Host.Outcome State Fault Refusal := runEvent (fun s => ldfRetry s cid)
def execBarwaitRelease (cid : Nat) : State → Host.Outcome State Fault Refusal := runEvent (fun s => barRelease s cid)
def execRawaitRelease (cid : Nat) : State → Host.Outcome State Fault Refusal := runEvent (fun s => ringRelease s cid)
def execGwaitRelease (cid : Nat) : State → Host.Outcome State Fault Refusal := runEvent (fun s => groupRelease s cid)
def execWfeWake (cid : Nat) : State → Host.Outcome State Fault Refusal := runEvent (fun s => wfeWake s cid)
def execWfeTimeout (cid : Nat) : State → Host.Outcome State Fault Refusal := runEvent (fun s => wfeTimeout s cid)
def execIdleExpire (cid : Nat) : State → Host.Outcome State Fault Refusal := runEvent (fun s => idleExpire s cid)
def execFrontierReached (cid : Nat) : State → Host.Outcome State Fault Refusal := runEvent (fun s => frontierReached s cid)
def execDeferredFaultDelivery (cid : Nat) : State → Host.Outcome State Fault Refusal := runEvent (fun s => deferredDeliver s cid)
def execJournalChunkWaitTimeout (cid : Nat) : State → Host.Outcome State Fault Refusal := runEvent (fun s => chunkTimeout s cid)
def execTsCommit (dom : Nat) : State → Host.Outcome State Fault Refusal := runEvent (fun s => commitBegin s dom)
def execTsCommitComplete (dom : Nat) : State → Host.Outcome State Fault Refusal := runEvent (fun s => commitEnd s dom)
def execTaskStart (cid : Nat) : State → Host.Outcome State Fault Refusal := runEvent (fun s => startTask s cid)

end Sys2Proof.Machine
end

