-- ==== Sys2Proof/Machine/Schedule.lean ====
section
/-! DEFINITION. The Dispatcher's own steps: taking packets, residency, selection, aging, gang timeouts, pipelines, fault
tasks and the cancel (spec/07 R211-R223, spec/11 R338, spec/13 R397, R401). -/

namespace Sys2Proof.Machine
open Sys2Proof

/-! ## Residency (R213, R214) -/

/-- The die whose Dispatcher serves a queue. -/
def queueDie (s : State) (queue : Nat) : Option Nat := (range' 0 4).find? (fun d => (look (dispAt s d).queues queue).isSome)

/-- Whether a queue has a packet to take, or a slot that must be looked at, as far as its Dispatcher has its translations. -/
def queueWork (s : State) (die queue : Nat) (q : TQueue) : Bool :=
  let u := dispAgt die queue
  q.spilled.isSome || ((queueLacks s u q.hdr none).isNone && (match (slotOf s u q.hdr).1 with
    | .empty => false
    | _ => true))

/-- The walk that a Dispatcher asks for to look at a queue that is not resident (R31). -/
def outsideAsk (s : State) (die queue : Nat) (q : TQueue) : Option State :=
  if q.spilled.isSome then none else (queueLacks s (dispAgt die queue) q.hdr none).map (agtAsk s (dispAgt die queue))

/-- The nonresident queues of a die in the order in which they are considered. -/
def outsideTurn (s : State) (die : Nat) : List (Nat × TQueue) :=
  let d := dispAt s die
  let out := d.queues.filter (fun q => !d.resident.any (fun r => r.queue == q.1))
  out.filter (fun q => decide (d.lastResident < q.1)) ++ out.filter (fun q => decide (q.1 ≤ d.lastResident))

/-- DISPATCHER_TAKE_PACKET: while TQTAB.EN is 1, a resident queue without a head, or the next queue to be made resident,
takes its packet (R212-R214). -/
def dispatcherTake (s : State) (queue : Nat) : State :=
  match queueDie s queue with
  | none => s
  | some die =>
    let d := dispAt s die
    if d.stopped || d.cancelled || !bit (dev s 0x100600) 0 then s
    else
      match look d.queues queue with
      | none => s
      | some q =>
        match d.resident.find? (fun r => r.queue = queue) with
        | some r => if r.head.isSome then s else takePacket s die queue q
        | none =>
          match outsideAsk s die queue q with
          | some s1 => s1
          | none =>
          let first := (outsideTurn s die).find? (fun x => queueWork s die x.1 x.2)
          if d.resident.length < 256 ∧ first.map (·.1) = some queue then
            takePacket (updDisp s die (fun d => { d with
              resident := d.resident ++ [{ queue := queue, head := none, emptySince := s.cycle }], lastResident := queue })) die queue q
          else s

/-- RESIDENT_HEAD_RELEASE. -/
def releaseResident (s : State) (die queue : Nat) : State :=
  updDisp s die (fun d => { d with
    resident := d.resident.filter (fun r => !(r.queue == queue && r.head.isNone && decide (r.emptySince + 4096 ≤ s.cycle))) })

/-- The priority of the packet that a nonresident queue has next. -/
def nextPrio (s : State) (die queue : Nat) (q : TQueue) : Option Nat :=
  let u := dispAgt die queue
  match q.spilled with
  | some h => some (pkPrio h.packet)
  | none =>
    match queueLacks s u q.hdr none, (slotOf s u q.hdr).1 with
    | none, .packet p _ _ => some (pkPrio p)
    | _, _ => none

/-- The resident head of the lowest effective priority, where every head is held. -/
def lowestHead (s : State) (die : Nat) : Option (Nat × Head) :=
  let hs := (dispAt s die).resident.filterMap (fun r => r.head.map (fun h => (r.queue, h)))
  if hs.length < 256 then none
  else hs.foldl (fun b x => match b with
    | none => some x
    | some y => if effPrio s x.2 < effPrio s y.2 then some x else some y) none

/-- HEAD_SPILL: the lowest head makes room for a packet above it, with the time it has waited. -/
def spillHead (s : State) (die : Nat) : State :=
  match lowestHead s die with
  | none => s
  | some (queue, h) =>
    if (outsideTurn s die).any (fun q => (nextPrio s die q.1 q.2).any (fun p => decide (effPrio s h < p))) && !areaFull s die then
      updDisp (jrnlWrite s die 1) die (fun d => { d with
        resident := d.resident.filter (fun r => r.queue ≠ queue)
        queues := d.queues.map (fun q => (q.1,
          if q.1 = queue then { q.2 with spilled := some { h with since := s.cycle - h.since } } else q.2))
        closed := d.closed.filter (fun c => c.2 != queue) })
    else s

/-! ## Selection (R216, R218) -/

/-- DISPATCH_SELECT: saved tasks go on where a context is free, launches held back join as room comes, a head is spilled if one must be,
and one task or gang is dispatched. -/
def dispatchStep (s : State) (die : Nat) : State :=
  if (dispAt s die).stopped then s
  else
    let s1 := resumeSaved (acceptDue (dueJoin die (dispAt s die).due.length s) die) die
    selectDie (spillHead s1 die) die

/-- HEAD_AGING: a head that has waited 2^20 cycles is a level higher from then on. -/
def ageHead (s : State) (die queue : Nat) : State :=
  let age (h : Head) : Head := if h.since + 2 ^ 20 ≤ s.cycle then { h with aged := true } else h
  updDisp s die (fun d =>
    if 4096 ≤ queue then
      match getD d.spawn [] (queue - 4096) with
      | [] => d
      | h :: r => { d with spawn := put d.spawn (queue - 4096) (age h :: r) }
    else { d with resident := d.resident.map (fun r => if r.queue = queue then { r with head := r.head.map age } else r) })

/-- The timeout of a queue's gangs; spawn queues have none. -/
def gangLimit (s : State) (die queue : Nat) : Option Nat := (look (dispAt s die).queues queue).map (fun q => 2 ^ (q.gto + 8))

/-- The gang heads of a die that have waited for their timeout. -/
def lateGangs (s : State) (die : Nat) : List (Nat × Head) :=
  (headsOf s die).filter (fun q => q.2.gang && (gangLimit s die q.1).any (fun t => decide (q.2.since + t ≤ s.cycle)))

/-- GANG_TIMEOUT: the oldest waiting gang closes the cluster with the most cores that have a free context. -/
def gangTimeout (s : State) (die queue : Nat) : State :=
  let late := lateGangs s die
  match late.find? (fun q => q.1 = queue) with
  | none => s
  | some (_, h) =>
    if (dispAt s die).closed.isSome || eligible s die queue h || late.any (fun q => decide (q.2.since < h.since)) then s
    else
      let free (cl : Nat) : Nat := ((range' (128 * die + 16 * cl) 16).filter (fun c => !(freeCtxs s c).isEmpty)).length
      updDisp s die (fun d => { d with closed := some (argMax ((range' 0 8).map free), queue) })

/-! ## Pipelines (R219) -/

/-- The queues of a stage of a pipeline of a die. -/
def stageQueues (s : State) (die p v : Nat) : List (Nat × TQueue) :=
  (dispAt s die).queues.filter (fun q => q.2.pl == p && q.2.stg == v)

/-- The packets that wait at a queue, and whether it is full. -/
def queueLoad (s : State) (die : Nat) (q : Nat × TQueue) : Nat × Bool :=
  let u := dispAgt die q.1
  match queueXl s u q.2.hdr 64, hdrLine s u q.2.hdr with
  | .ok l, .ok (_, h) =>
    let n := rdHome s l 8 - bits h 63 0
    (n, decide (2 ^ bits h 132 128 ≤ n))
  | _, _ => (0, false)

/-- The demand of a stage of n cores as a fraction: packets over cores. -/
def stageDemand (s : State) (die p v k n : Nat) : Nat × Nat :=
  let nx := stageQueues s die p (v + 1)
  if v + 1 < k ∧ !nx.isEmpty ∧ nx.all (fun q => (queueLoad s die q).2) then (0, 1)
  else
    let w := ((stageQueues s die p v).map (fun q => (queueLoad s die q).1)).foldl (· + ·) 0
    if w = 0 then (0, 1) else (w, n)

/-- The first index of the least, or of the greatest, fraction: of stages with the same demand, R219 does not say which it is (DESIGN
CHOICE, log 26). -/
def extreme (lt : Nat × Nat → Nat × Nat → Bool) (xs : List (Nat × Nat)) : Nat :=
  ((range' 0 xs.length).foldl (fun b i => match b with
    | none => some i
    | some j => if lt (xs.getD i (0, 1)) (xs.getD j (0, 1)) then some i else some j) none).getD 0
def fracLt (a b : Nat × Nat) : Bool := decide (a.1 * b.2 < b.1 * a.2)

/-- Moves a core of one pipeline; which core of the donor it is, is a free value (DESIGN CHOICE, log 26). A core with tasks keeps a mark
until they have ended. -/
def rebalancePipe (s : State) (die p : Nat) : State :=
  let cs := pipeCores s die p
  let k := stages s die p
  let of_ (v : Nat) : List Nat := cs.filter (fun c => stageOf s die c p % 8 == v)
  let ds := (range' 0 k).map (fun v => stageDemand s die p v k (of_ v).length)
  let lo := extreme fracLt ds
  let hi := extreme (fun a b => fracLt b a) ds
  if (of_ lo).length < 2 ∨ !fracLt (ds.getD lo (0, 1)) (ds.getD hi (0, 1)) then s
  else
    let (n, s1) := draw s
    let core := (of_ lo).getD (Config.choose n % (of_ lo).length) 0
    let busy := (range' (8 * (128 * die + core)) 8).any (fun c => (ctxOf s1 c).task.isSome)
    updDisp s1 die (fun d => { d with stage := put d.stage core (if busy then 8 + hi else hi) })

/-- The queues of a die's pipelines, which a rebalance looks at. -/
def pipeQueues (s : State) (die : Nat) : List (Nat × TQueue) :=
  (dispAt s die).queues.filter (fun q => q.2.pl != 0 && !(pipeCores s die q.2.pl).isEmpty)

/-- PIPELINE_REBALANCE: every 4,096 cycles, for each pipeline of a die, once the Dispatcher has translated the headers of their queues
(R31). -/
def rebalance (s : State) (die : Nat) : State :=
  if s.cycle / 4096 = (dispAt s die).rebalanced / 4096 then s
  else
    match (pipeQueues s die).findSome? (fun q => (hdrLacks s (dispAgt die q.1) q.2.hdr).map (agtAsk s (dispAgt die q.1))) with
    | some s1 => s1
    | none =>
      let s1 := (range' 1 7).foldl (fun s p => if (pipeCores s die p).isEmpty then s else rebalancePipe s die p)
        (updDisp s die (fun d => { d with rebalanced := s.cycle }))
      (pipeQueues s die).foldl (fun s q => unitDone s (dispAgt die q.1)) s1

/-! ## Fault records and fault tasks (R397, R401) -/

/-- The contexts of a die that wait for a record. -/
def recordWaiters (s : State) (die : Nat) : List Nat :=
  (range' (1024 * die) 1024).filter (fun c => match (ctxOf s c).wait with
    | some (.record _) => true
    | _ => false)

/-- FAULT_RECORD_ALLOC: one party that waits for a record of a die has it; which one is a free value (DESIGN CHOICE, log 8). -/
def recordAlloc (s : State) (die : Nat) : State :=
  if (freeRec s die).isNone then s
  else
    let cs := recordWaiters s die
    let rs := (dispAt s die).recWait
    let n := cs.length + rs.length
    if n = 0 then s
    else
      let (k, s1) := draw s
      let i := Config.choose k % n
      if i < cs.length then
        withCtx s1 (cs.getD i 0) (fun s => match s.cx.wait with
          | some (.record x) => deliverTrap s x
          | _ => s)
      else
        match rs[i - cs.length]? with
        | none => s1
        | some (r, task) =>
          let s2 := updDisp s1 die (fun d => { d with recWait := d.recWait.eraseIdx (i - cs.length) })
          match writeRec s2 die r with
          | none => s1
          | some (_, m, s3) => if task then updDisp s3 die (fun d => { d with ftask := d.ftask ++ [m] }) else s3

/-- The packet of a fault task for a record at an S-address. -/
def faultPacket (s : State) (a : Nat) : BitVec 512 :=
  let f := dev s 0x100808
  BitVec.ofNat 512 (1 + bits f 21 16 * 2 ^ 10 + 63 * 2 ^ 16 + 4 * 2 ^ 22 + bits f 15 0 * 2 ^ 33 + a * 2 ^ 128)

/-- FAULT_TASK_LAUNCH: a single launch in S mode, where FTASK allows it. -/
def faultTask (s : State) (die rec : Nat) : State :=
  if !(dispAt s die).ftask.contains rec then s
  else
    let s1 := updDisp s die (fun d => { d with ftask := d.ftask.erase rec })
    match frbBase s die with
    | none => s1
    | some b =>
      let p := faultPacket s (b + 128 * rec)
      if !bit (dev s 0x100808) 22 ∨ domTs s (pkDom p) ∨ launchBad s p then s1
      else
        match handlerEntry s die (pkHidx p) with
        | .error _ => s1
        | .ok e => enqueueSpawn (entryNote s1 die (pkHidx p)) die p 0 4 none true false e

/-! ## Cancellation (R223, R338) -/

/-- The tasks of a head that have not been dispatched. -/
def headTids (h : Head) : List Tid := h.todo.map (fun x => { dom := pkDom h.packet, ts := h.ts, seq := x.2.2 })

/-- Every graph of a die is frozen without readout and its sites released. -/
def cancelGraphs (s : State) (die : Nat) : State :=
  s.fab.graphs.foldl (fun s g =>
    if g.2.die ≠ die then s
    else
      let s1 := (regionSites g.2.die g.2.col g.2.row g.2.w g.2.h).foldl resetSite (cfgUnmark s g.1)
      { s1 with fab := { s1.fab with graphs := del s1.fab.graphs g.1 } }) s

/-- JCANCEL_LINEARISE: what R223 lists takes effect on a die. -/
def cancelDie (s : State) (die : Nat) : State :=
  let d := dispAt s die
  if !d.cancelDue then s
  else
    let gone := ((d.resident.filterMap (·.head)) ++ (d.queues.filterMap (fun q => q.2.spilled)) ++
      (d.spawn.flatMap (·.2)) ++ d.due).filter (fun h => !h.super)
    let tids := gone.flatMap headTids
    let s1 := updDisp { s with live := s.live.filter (fun l => !(l.st == .waiting && tids.contains l.task.tid)) } die
      (fun d => { d with
        cancelDue := false, cancelled := true, cancelAt := s.cycle, resident := [], closed := none
        queues := d.queues.map (fun q => (q.1, { q.2 with spilled := none })), due := d.due.filter (·.super)
        spawn := (d.spawn.map (fun q => (q.1, q.2.filter (·.super)))).filter (fun q => !q.2.isEmpty) })
    let mine := (range' (1024 * die) 1024).filter (fun c => (ctxOf s1 c).task.isSome)
    let tss := (mine.filter (fun c => isTs s1 (ctxOf s1 c))).filterMap (fun c => (ctxOf s1 c).task.map (·.tid))
    let ended := (s1.ended.filter (fun e => cidDie e.cid = die && (domainAt s1 e.tid.dom).commit != some e.tid)).map (·.tid)
    let left := s1.ended.foldl (fun s e => if ended.contains e.tid then e.held.foldl (fun s h => match h with
      | .gleave a ar => groupLeave s a ar
      | _ => s) s else s) ((mine.filter (fun c => isTs s1 (ctxOf s1 c))).foldl leaveGroup s1)
    let s2 := (tss ++ ended).foldl (fun s t => abortTask s t false) left
    -- a pre-empted timestamp task aborts as a running one
    let s2 := (d.saved.filter (isTs s2)).foldl (fun s c => match c.task with
      | none => s
      | some t => abortTask (match c.group with
          | some (a, ar) => groupLeave s a ar
          | none => s) t.tid false) s2
    let s3 := mine.foldl (fun s c =>
      if cancelHits s c && (ctxOf s c).wait.any isStall then cancelKill s c else s) s2
    cancelGraphs (cancelEngines s3 die) die

/-- CANCEL_KILL_TIMEOUT: a free task of a cancelled job, 2^24 cycles after the point, at its next instruction boundary: not while a delay
lasts. -/
def cancelTimeout (s : State) (cid : Nat) : State :=
  if cancelHits s cid ∧ (ctxOf s cid).wait.all isStall ∧ (dispAt s (cidDie cid)).cancelAt + 2 ^ 24 ≤ s.cycle then cancelKill s cid else s

/-- Whether a task of the job remains. -/
def jobTasks (s : State) : Bool :=
  s.live.any (fun l => !l.task.super) || s.cx.task.any (fun t => !t.super) ||
  s.others.any (fun c => c.2.task.any (fun t => !t.super)) || !s.ended.isEmpty

/-- JCANCEL_COMPLETE: DONE of JCST is set. -/
def cancelComplete (s : State) : State :=
  let v := dev s 0x100700
  if !bit v 0 && (range' 0 4).all (fun d => (dispAt s d).cancelled && !(dispAt s d).cancelDue) && !jobTasks s then
    setDev s 0x100700 (BitVec.ofNat 64 (v + 1))
  else s

/-! ## The events -/

def execDispatcherTakePacket (queue : Nat) : State → Host.Outcome State Fault Refusal := runEvent (fun s => dispatcherTake s queue)
def execDispatchSelect (die : Nat) : State → Host.Outcome State Fault Refusal := runEvent (fun s => dispatchStep s die)
def execHeadAging (die queue : Nat) : State → Host.Outcome State Fault Refusal := runEvent (fun s => ageHead s die queue)
def execResidentHeadRelease (die queue : Nat) : State → Host.Outcome State Fault Refusal :=
  runEvent (fun s => releaseResident s die queue)
def execGangTimeout (die queue : Nat) : State → Host.Outcome State Fault Refusal := runEvent (fun s => gangTimeout s die queue)
def execPipelineRebalance (die : Nat) : State → Host.Outcome State Fault Refusal := runEvent (fun s => rebalance s die)
def execJcancelLinearise (die : Nat) : State → Host.Outcome State Fault Refusal := runEvent (fun s => cancelDie s die)
def execCancelKillTimeout (cid : Nat) : State → Host.Outcome State Fault Refusal := runEvent (fun s => cancelTimeout s cid)
def execJcancelComplete : State → Host.Outcome State Fault Refusal := runEvent cancelComplete
def execFaultRecordAlloc (die : Nat) : State → Host.Outcome State Fault Refusal := runEvent (fun s => recordAlloc s die)
def execFaultTaskLaunch (die rec : Nat) : State → Host.Outcome State Fault Refusal := runEvent (fun s => faultTask s die rec)

end Sys2Proof.Machine
end

