-- ==== Sys2Proof/Machine/MemEvents.lean ====
section
/-! DEFINITION. Instruction fetch, and the steps of the memory hierarchy: walks, instruction lines, bank ports, RMW nodes,
atomic engines, snoops, scrubbing (spec/01 R31, spec/02 R41-R66, spec/08 R229-R234). -/

namespace Sys2Proof.Machine
open Sys2Proof

/-! ## Instruction fetch (R25, R65-R67) -/

/-- The line of a location as its target holds it now. -/
def lineAt (s : State) (loc : Nat) : CLine × State :=
  let s1 := takeBack s (loc / 64)
  ({ line := loc / 64, data := BitVec.ofNat 512 (rdNat s1 (loc / 64 * 64) 64), bad := poisoned s1 (loc / 64 * 64) 64 }, s1)

/-- A line enters a core's instruction cache. -/
def icFill (s : State) (core : Nat) (l : CLine) : State :=
  let (k, s1) := draw s
  updCore s1 core (fun c => { c with icache := cacheFill c.icache l (Config.choose k) })

/-- What a fetch by the current context meets: its answer, a fault, or a wait. -/
inductive Fetched (α : Type) where
  | got (a : α) (s : State)
  | fault (f : FaultInfo)
  | waits (w : Wait) (s : State)

/-- The target of a fetch by the current context (R25, R30, R35). -/
def fetchXl (s : State) (va : W64) : Fetched Xl :=
  if !canon va then .fault (faultAt cADDR va)
  else
    match coreLeaf s s.cur va.toNat with
    | .faults => .fault (faultAt cPAGE va)
    | .walks s1 => .waits (.walk (pageOf va.toNat)) s1
    | .held e s1 =>
      match formXl s1 e va .fetch 4 false s.cx.mode with
      | .error f => .fault f
      | .ok x => if linkDown s1 x then .fault (faultAt cECC va) else .got x s1

/-- A line is asked for, if it is not on its way already. -/
def askLine (s : State) (core : Nat) (f : IFill) : State :=
  updCore s core (fun c => if c.ifills.any (fun g => g.line == f.line) then c else { c with ifills := c.ifills ++ [f] })

/-- The next-line request of a miss: none where the line lies on another page that is not in the core's TLB, or would fault, or is
there (R65). -/
def fetchNext (s : State) (va : W64) : State :=
  let core := coreOf s.cur
  let nx := BitVec.ofNat 64 (va.toNat / 64 * 64 + 64)
  match tlbFind (coreAt s core).tlb nx.toNat with
  | none => s
  | some e =>
    match formXl s e nx .fetch 4 false s.cx.mode with
    | .error _ => s
    | .ok x =>
      if linkDown s x || (coreAt s core).icache.any (fun l => l.line == x.loc / 64) then s
      else askLine s core { va := nx, line := x.loc / 64, again := false }

/-- The word at a VA as the current context fetches it from its core's instruction cache. A miss asks for the line and for the next; a
poisoned line is discarded and read again (R65-R67). -/
def fetchWord (s : State) (va : W64) : Fetched W32 :=
  let core := coreOf s.cur
  match fetchXl s va with
  | .fault f => .fault f
  | .waits w s1 => .waits w s1
  | .got x s1 =>
    let line := x.loc / 64
    match (coreAt s1 core).icache.find? (fun l => l.line = line) with
    | none => .waits (.fetch va) (fetchNext (askLine s1 core { va := va, line := line, again := false }) va)
    | some l =>
      if !l.bad then .got (l.data.extractLsb' (8 * (x.loc % 64)) 32) s1
      else
        let s2 := updCore s1 core (fun c => { c with icache := c.icache.filter (fun y => y.line ≠ line) })
        .waits (.fetch va) (askLine s2 core { va := va, line := line, again := true })

/-- The contexts of a core that wait for a line try again; after a second bad copy those that need it trap at their next step (R66). -/
def wakeFetch (s : State) (core : Nat) (va : W64) (bad : Bool) : State :=
  (range' (8 * core) 8).foldl (fun s cid =>
    match (ctxOf s cid).wait with
    | some (.fetch v) =>
      updCtx s cid (fun c => { c with
        wait := none
        trapNext := if bad && decide (v.toNat / 64 = va.toNat / 64) then
            { f := faultAt cECC v, pc := c.pc, ir := if v = c.pc then [] else c.ir.take 1 } :: c.trapNext
          else c.trapNext })
    | _ => s) s

/-- ICACHE_MISS_FILL: a line that a core has asked for arrives, perhaps with an uncorrectable error (R66). -/
def icacheArrive (s : State) (core : Nat) (va : W64) (bad : Bool) : State :=
  match (coreAt s core).ifills.find? (fun f => f.va = va) with
  | none => s
  | some f =>
    let s1 := updCore s core (fun c => { c with ifills := c.ifills.erase f })
    let (l, s2) := lineAt s1 (64 * f.line)
    let twice := f.again && (l.bad || bad)
    wakeFetch (if twice then s2 else icFill s2 core { l with bad := l.bad || bad }) core va twice

/-! ## Banks (R41, R43) -/

/-- BANK_PORT_REQUEST: the head plain request of a port is performed; one to a word in the comparator waits (R53). -/
def bankServe (s : State) (k : Nat) (portF : Bool) : State :=
  match bankHead s k portF with
  | none => s
  | some r =>
    if r.op.isSome || wordBusy s k r.loc ||
      (portF && (bankHead s k false).any (fun m => m.arrival == r.arrival && m.loc / 8 == r.loc / 8)) then s
    else serveReq (popBank s k portF) none r

/-- BANK_SCRUB: a word of a bank is read; an error is corrected, or poisons it, and is counted (R43, R403). -/
def scrub (s : State) (word : Nat) (err : EccKind) : State :=
  if !isBank s (8 * word) then s
  else
    match err with
    | .clean => s
    | .single => countCe s (homeDie (8 * word))
    | .double => markPoison s (8 * word) 8

/-! ## Atomic engines and snoops (R55-R57) -/

/-- ATOMIC_ENGINE_LINE_FILL: a line that the engine asked for arrives. -/
def aeArrive (s : State) (cl line : Nat) : State := if (clusterAt s cl).fills.contains line then aeFill s cl line else s

/-- HOST_SNOOP: a line of host memory is recalled from an atomic engine and leaves the L1s. -/
def hostSnoop (s : State) (line : Nat) : State :=
  if 64 * line < hostBase ∨ peerBase ≤ 64 * line then s
  else
    let s1 := recallLine s line
    { s1 with cores := s1.cores.map (fun c => (c.1, { c.2 with l1d := c.2.l1d.filter (fun l => l.line ≠ line) })) }

/-! ## Soft errors outside the banks (R68) -/

/-- An uncorrectable error in a line of a context's store buffer: what it held is lost with its task, which runs again or is reported as
the task of a failed core is (R408); of a task that does not run again, the words at their homes are poisoned (DEDUCED, log 52). -/
def bufferLost (s : State) (cid line : Nat) : State :=
  match (ctxOf s cid).sb.find? (fun l => l.line = line), (ctxOf s cid).task with
  | some l, some t =>
    let again := if domTs s t.tid.dom then !(ctxOf s cid).committing else !t.exposed
    let s1 := if again then s else l.bytes.foldl (fun s b => markPoison s (64 * line + b.1) 1) s
    loseTask (updCtx s1 cid (fun c => { c with sb := c.sb.filter (fun l => l.line ≠ line) })) cid
  | _, _ =>
    match s.ended.find? (fun e => e.cid = cid && e.sb.any (fun l => l.line == line)) with
    | some e => abortTask s e.tid true
    | none => s

/-- The soft error of a line: corrected and counted; an L1's line discarded, so that a load reads again; a code line marked (R66); an
atomic
engine's line poisoned, on which its tasks' atomics then fault; one of the memory-side cache or HBM poisoned, for the page's P to decide
(R27, R402). -/
def lineError (s : State) (line : Nat) : LineErr → State
  | .none => s
  | .corrected die => countCe s die
  | .l1 core => l1DropLine s core line
  | .code core => updCore s core (fun c => { c with icache := c.icache.map (fun l => if l.line = line then { l with bad := true } else l) })
  | .buffer cid => bufferLost s cid line
  | .engine cl => if (clusterAt s cl).lines.any (fun l => l.line == line) then markPoison (recallLine s line) (64 * line) 64 else s
  | .home => if hbmBase ≤ 64 * line ∧ 64 * line < hostBase then markPoison s (64 * line) 64 else s

/-! ## The events -/

/-- ILLEGAL_INSTRUCTION (R234): what step does with words that its decoder refuses. -/
def execIllegalInstruction (w second : W32) (s : State) : Host.Outcome State Fault Refusal :=
  let ir := if isX w then [w, second] else [w]
  runInsn false true 4 (pure .next) { s with cx := { s.cx with ir := ir } }

def execWalkComplete (die : Nat) : State → Host.Outcome State Fault Refusal := runEvent (fun s => walkStep s die)
def execIcacheMissFill (core : Nat) (va : W64) (bad : Bool) : State → Host.Outcome State Fault Refusal :=
  runEvent (fun s => icacheArrive s core va bad)
def execBankPortRequest (bank : Nat) (portF : Bool) : State → Host.Outcome State Fault Refusal :=
  runEvent (fun s => bankServe s bank portF)
def execRmwAtomic (bank : Nat) (portF : Bool) : State → Host.Outcome State Fault Refusal := runEvent (fun s => rmwRead s bank portF)
def execRmwAtomicComplete (bank : Nat) : State → Host.Outcome State Fault Refusal := runEvent (fun s => rmwWrite s bank)
def execBankScrub (word : Nat) (err : EccKind) : State → Host.Outcome State Fault Refusal := runEvent (fun s => scrub s word err)
def execAtomicEnginePick (cluster : Nat) : State → Host.Outcome State Fault Refusal := runEvent (fun s => aeStep s cluster)
def execAtomicEngineLineFill (cluster line : Nat) : State → Host.Outcome State Fault Refusal :=
  runEvent (fun s => aeArrive s cluster line)
def execAtomicEngineRecall (line : Nat) : State → Host.Outcome State Fault Refusal := runEvent (fun s => recallLine s line)
def execHostSnoop (line : Nat) : State → Host.Outcome State Fault Refusal := runEvent (fun s => hostSnoop s line)
def execPeerAccessServe (acc : PeerAcc) : State → Host.Outcome State Fault Refusal := runEvent (fun s => peerServe s acc)

/-- MEMORY_SIDE_CACHE_ACCESS: it holds nothing that a program can observe; every access is applied within its own step, in
that order (R63). What it adds are the errors of lines, there and in the other stores of R68. -/
def execMemorySideCacheAccess (acc : LineAcc) : State → Host.Outcome State Fault Refusal :=
  runEvent (fun s => lineError s acc.line acc.err)

end Sys2Proof.Machine
end

