-- ==== Sys2Proof/Machine/Registers.lean ====
section
/-! DEFINITION. The steps of device registers: writes and reads whose meaning the operations of Device give, from whatever
party they come (spec/00 R6, spec/01 R22, spec/05 R121, spec/07 R198, R212, spec/13 R401-R410, spec/14 R415-R429). -/

namespace Sys2Proof.Machine
open Sys2Proof

/-- An 8-byte write of a register; one that faults changes nothing here, since the fault is the writer's (R410). -/
def putReg (s : State) (off : Nat) (v : W64) : State :=
  if !regAssigned off ∨ off % 8 ≠ 0 then s
  else
    match regWrite s off 8 v.toNat with
    | .ok s1 => s1
    | .error _ => s

/-- An 8-byte read of a register: its RC fields clear. -/
def readReg (s : State) (off : Nat) : State := if regAssigned off ∧ off % 8 = 0 then (regRead s off 8).2 else s

/-- A request in REQ of PWRCTL, CAP unchanged. -/
def powerReq (s : State) (req : Nat) : State :=
  let v := dev s 0x100A20
  putReg s 0x100A20 (BitVec.ofNat 64 (v - v % 4 + req))

def execCqtabWrite (v : W64) : State → Host.Outcome State Fault Refusal := runEvent (fun s => putReg s 0x100300 v)
def execTqtabWrite (v : W64) : State → Host.Outcome State Fault Refusal := runEvent (fun s => putReg s 0x100600 v)
def execPtrootWrite (v : W64) : State → Host.Outcome State Fault Refusal := runEvent (fun s => putReg s 0x100000 v)
def execDomcfgWrite (dom : Nat) (v : W64) : State → Host.Outcome State Fault Refusal :=
  runEvent (fun s => if dom < 64 then putReg s (0x100400 + 8 * dom) v else s)
def execRegisterWrite (off : Nat) (v : W64) : State → Host.Outcome State Fault Refusal := runEvent (fun s => putReg s off v)
def execFrcmdResume (die rec : Nat) : State → Host.Outcome State Fault Refusal := runEvent (fun s => frResume s die rec)
def execFrcmdAbandon (die rec : Nat) : State → Host.Outcome State Fault Refusal := runEvent (fun s => frAbandon s die rec)
def execFrcmdRelease (die rec : Nat) : State → Host.Outcome State Fault Refusal := runEvent (fun s => frRelease s die rec)
def execUnitctlDrain (die site : Nat) : State → Host.Outcome State Fault Refusal := runEvent (fun s => drainSite s die site)
def execUnitctlFence (die site : Nat) : State → Host.Outcome State Fault Refusal := runEvent (fun s => fenceSite s die site)
def execUnitctlUnfence (die site : Nat) : State → Host.Outcome State Fault Refusal := runEvent (fun s => unfenceSite s die site)
def execJctlSave : State → Host.Outcome State Fault Refusal := runEvent jctlSave
def execJctlRestore : State → Host.Outcome State Fault Refusal := runEvent jctlRestore
def execBuddyWrite (v : W64) : State → Host.Outcome State Fault Refusal := runEvent (fun s => putReg s 0x100900 v)
def execEcntRead (die : Nat) : State → Host.Outcome State Fault Refusal :=
  runEvent (fun s => if die < 4 then readReg s (0x100940 + 8 * die) else s)
def execLnkstRead (port : Nat) : State → Host.Outcome State Fault Refusal :=
  runEvent (fun s => if port < 12 then readReg s (0x100B00 + 8 * port) else s)
def execHsemCas (who : RegParty) (expected new : W32) : State → Host.Outcome State Fault Refusal :=
  runEvent (fun s => (hsemCas s who expected.toNat new.toNat).2)
def execHsemRead : State → Host.Outcome State Fault Refusal := runEvent (fun s => readReg s 0x100A00)
def execHnoteWrite (v : W64) : State → Host.Outcome State Fault Refusal := runEvent (fun s => putReg s 0x100A08 v)
def execPkgidWrite (v : W64) : State → Host.Outcome State Fault Refusal := runEvent (fun s => putReg s 0x100A10 v)
def execBootGo : State → Host.Outcome State Fault Refusal := runEvent bootGo
def execPwrctlRun : State → Host.Outcome State Fault Refusal := runEvent (fun s => powerReq s 0)
def execPwrctlStandby : State → Host.Outcome State Fault Refusal := runEvent (fun s => powerReq s 1)
def execPwrctlOff : State → Host.Outcome State Fault Refusal := runEvent (fun s => powerReq s 3)

/-- POWER_THROTTLE: the average of the last millisecond against CAP (R430). THR has an effect on timing alone. -/
def throttle (s : State) (watts : Nat) : State :=
  let v := dev s 0x100A20
  let cap := 10 * bits v 15 4
  if cap < watts then (if bit v 16 then s else setDev s 0x100A20 (BitVec.ofNat 64 (v + 2 ^ 16)))
  else if 20 * watts ≤ 19 * cap then (if bit v 16 then setDev s 0x100A20 (BitVec.ofNat 64 (v - 2 ^ 16)) else s)
  else s

def execPowerThrottle (watts : Nat) : State → Host.Outcome State Fault Refusal := runEvent (fun s => throttle s watts)

end Sys2Proof.Machine
end

