-- ==== Sys2Proof/Machine/FabEvents.lean ====
section
/-! DEFINITION. The steps of copy engines, rings, barriers and tokens, and of the fabric: configuration, elements, cells,
graphs and circuits (spec/05, spec/12, spec/14 R426). -/

namespace Sys2Proof.Machine
open Sys2Proof

/-! ## Copies and completion -/

def execCopyQueueTake (eng queue : Nat) : State → Host.Outcome State Fault Refusal := runEvent (fun s => queueTake s eng queue)
def execCopyQueueStall (eng queue : Nat) : State → Host.Outcome State Fault Refusal := runEvent (fun s => queueStall s eng queue)
def execFenceCopyStart (eng copy : Nat) : State → Host.Outcome State Fault Refusal := runEvent (fun s => fenceStart s eng copy)
def execCopyTransfer (eng copy : Nat) : State → Host.Outcome State Fault Refusal := runEvent (fun s => copyTransfer s eng copy)
def execCopySegmentComplete (eng copy seg : Nat) : State → Host.Outcome State Fault Refusal :=
  runEvent (fun s => segmentDone s eng copy seg)
def execCopyComplete (eng copy : Nat) : State → Host.Outcome State Fault Refusal := runEvent (fun s => copyComplete s eng copy)
def execRingPushRetry (eng copy : Nat) : State → Host.Outcome State Fault Refusal := runEvent (fun s => ringRetry s eng copy)
def execRingRecordAck (ring slot : Nat) : State → Host.Outcome State Fault Refusal := runEvent (fun s => ringAck s ring slot)

/-- A control token (R147): with TKS a template's spawn, else a tag set full or a start token. -/
def tokenArrive (s : State) (t : CtlTok) : State :=
  if t.tks then
    match checkObj s (BitVec.ofNat 64 t.tgt) 64 t.super with
    | .ok a => fireRecord s a t.val
    | .error _ => s
  else
    match endpointToken s t.tgt with
    | .ok s1 => s1
    | .error _ => s

/-- BARRIER_UPDATE: what waits at the object's words in the comparator is applied (R53, R145). An update itself is applied
within the step that makes it: an instruction, a copy's segment, an element's period. -/
def barrierApply (s : State) (obj : Nat) : State := if sPlace s obj = .bank ∧ obj < 2 ^ 32 then settle s obj 16 else s

def execBarrierUpdate (obj : Nat) : State → Host.Outcome State Fault Refusal := runEvent (fun s => barrierApply s obj)
def execControlTokenArrive (tok : CtlTok) : State → Host.Outcome State Fault Refusal := runEvent (fun s => tokenArrive s tok)

/-! ## Configuration and start -/

def execCfgStreamApply (cid : Nat) : State → Host.Outcome State Fault Refusal := runEvent (fun s => streamStep s cid)
def execCfgWordApply (cid : Nat) : State → Host.Outcome State Fault Refusal := runEvent (fun s => wordStep s cid)
def execParamBlockRead (key : Nat) : State → Host.Outcome State Fault Refusal := runEvent (fun s => paramRead s key)
def execStartTokenArrive (key : Nat) : State → Host.Outcome State Fault Refusal := runEvent (fun s => startArrive s key)
def execSiteArbiterPeriod (site : Nat) : State → Host.Outcome State Fault Refusal := runEvent (fun s => arbiterPeriod s site)
def execSkipReceived (key : Nat) : State → Host.Outcome State Fault Refusal := runEvent (fun s => skipEvent s key)

/-! ## Elements, by site code (Table 12-1) -/

def execScnFire (key : Nat) : State → Host.Outcome State Fault Refusal := runEvent (fireElem 1 key)
def execIsxFire (key : Nat) : State → Host.Outcome State Fault Refusal := runEvent (fireElem 2 key)
def execUniFire (key : Nat) : State → Host.Outcome State Fault Refusal := runEvent (fireElem 3 key)
def execRptFire (key : Nat) : State → Host.Outcome State Fault Refusal := runEvent (fireElem 4 key)
def execRedFire (key : Nat) : State → Host.Outcome State Fault Refusal := runEvent (fireElem 5 key)
def execLwrFire (key : Nat) : State → Host.Outcome State Fault Refusal := runEvent (fireElem 6 key)
def execVrdFire (key : Nat) : State → Host.Outcome State Fault Refusal := runEvent (fireElem 7 key)
def execCmbFire (key : Nat) : State → Host.Outcome State Fault Refusal := runEvent (fireElem 8 key)
def execRowFire (key : Nat) : State → Host.Outcome State Fault Refusal := runEvent (fireElem 9 key)
def execMemopFire (key : Nat) : State → Host.Outcome State Fault Refusal := runEvent (fireElem 0xB key)
def execJoinFire (key : Nat) : State → Host.Outcome State Fault Refusal := runEvent (fireElem 0xC key)
def execPeriodCompletion (key : Nat) : State → Host.Outcome State Fault Refusal := runEvent (fun s => periodCompletion s key)

/-! ## Cells -/

def execMadderBandDecode (key : Nat) : State → Host.Outcome State Fault Refusal := runEvent (fun s => bandDecode s key)
def execMatrixOpFire (key : Nat) : State → Host.Outcome State Fault Refusal := runEvent (fun s => matrixFire s key)
def execMatrixChunkComplete (key : Nat) : State → Host.Outcome State Fault Refusal := runEvent (fun s => chunkComplete s key)
def execDrainComplete (key : Nat) : State → Host.Outcome State Fault Refusal := runEvent (fun s => drainStep s key)
def execMxopMma (key : Nat) : State → Host.Outcome State Fault Refusal := runEvent (fun s => mxopMma s key)
def execMxopDrain (key : Nat) : State → Host.Outcome State Fault Refusal := runEvent (fun s => mxopDrain s key)
def execMxopZero (key : Nat) : State → Host.Outcome State Fault Refusal := runEvent (fun s => mxopZero s key)

/-! ## Graphs and circuits -/

def execRoundMarkerReceive (key : Nat) : State → Host.Outcome State Fault Refusal := runEvent (fun s => markerStep s key)
def execGraphFreezeComplete (base : Nat) : State → Host.Outcome State Fault Refusal := runEvent (fun s => freezeComplete s base)
def execGraphThawComplete (base : Nat) : State → Host.Outcome State Fault Refusal := runEvent (fun s => thawComplete s base)
def execCircuitSourceSend (circ : Nat) : State → Host.Outcome State Fault Refusal := runEvent (fun s => circuitSource s circ)
def execCircuitFlushTimer (circ : Nat) : State → Host.Outcome State Fault Refusal := runEvent (fun s => circuitFlush s circ)
def execCircuitPacketArrive (circ seq : Nat) (toks : List Token) : State → Host.Outcome State Fault Refusal :=
  runEvent (fun s => circuitArrive s circ seq toks)
def execCircuitAcknowledgement (circ seq : Nat) : State → Host.Outcome State Fault Refusal :=
  runEvent (fun s => circuitAck s circ seq)

end Sys2Proof.Machine
end

