-- ==== Sys2Proof/Machine/HostEvents.lean ====
section
/-! DEFINITION. What reaches the package from outside it: hosts, peer packages, links, power, failures, and the mirror (spec/13
R407-R411, spec/14). -/

namespace Sys2Proof.Machine
open Sys2Proof

/-! ## The mirror (R410, R411) -/

/-- Whether a location is one that a mirror point covers: S-space, and HBM in a window in force. -/
def covered (s : State) (loc : Nat) : Bool :=
  decide (loc < 2 ^ 32) || (decide (hbmBase ≤ loc) && decide (loc < hostBase) &&
    (range' 0 4).any (fun i =>
      let w := dev s (0x100908 + 8 * i)
      let o := (loc - hbmBase) / 2 ^ 29
      bit w 0 && decide (bits w 12 3 ≤ o) && decide (o ≤ bits w 22 13)))

/-- The memory that a mirror point covers. -/
def coveredMem (s : State) : List Host.Cell := s.mem.filter (fun c => covered s c.1)

/-- Live tasks with what their contexts have counted; a timestamp task counts as exposed once it publishes (R407, R408). -/
def liveNow (s : State) : List Live :=
  s.live.map (fun l => match l.st with
    | .running c =>
      let t := (ctxOf s c).task.getD l.task
      { l with task := if domTs s t.tid.dom then { t with exposed := (ctxOf s c).committing } else t }
    | _ => l)

/-- What a mirror point holds: beside what a job switch saves, the memory covered with its tags and marks of poison (DEDUCED, log 43), tasks
as they then stand, and copies as they resume (R410, R411). -/
def pointOf (s : State) : Snap :=
  { snapOf s (coveredMem s) with
    live := liveNow s, engines := rewound s, tags := s.tags.filter (fun t => covered s (8 * t.1))
    poison := s.poison.filter (fun t => covered s (8 * t.1))
    linePoison := s.linePoison.filter (fun t => covered s (64 * t.1)) }

/-- MIRROR_POINT: every 2^MPI cycles a point closes, once the one before it is complete. -/
def mirrorClose (s : State) : State :=
  let v := regView s 0x100900
  if !bit v 0 ∨ s.host.points ≠ s.host.pointsDone ∨ s.cycle < s.host.pointAt + 2 ^ bits v 18 14 then s
  else
    { s with host := { s.host with points := s.host.points + 1, pointAt := s.cycle, pointSnap := some (pointOf s) } }

/-- MIRROR_POINT_ACK: the buddy has the point. -/
def mirrorAck (s : State) : State :=
  if s.host.points = s.host.pointsDone then s
  else { s with host := { s.host with pointsDone := s.host.points, mirror := s.host.pointSnap } }

/-- Whether all that has been written is mirrored: what a host's read of device memory waits for (R410). -/
def mirrored (s : State) : Bool :=
  !bit (dev s 0x100900) 0 || (decide (s.host.points = s.host.pointsDone) &&
    (match s.host.mirror with
      | some m => decide (m.mem = coveredMem s)
      | none => false))

/-- A task live at the mirror point: run again, or reported (R408, R411). -/
def rerun (s : State) (l : Live) : State :=
  let t := l.task
  let die := cidDie t.home
  let ts := domTs s t.tid.dom
  if t.exposed || (domainAt s t.tid.dom).commit = some t.tid then
    let s1 : State := { s with live := s.live.filter (fun x => x.task.tid ≠ t.tid) }
    reportLost (if ts then updDomain s1 t.tid.dom (fun d => { d with lastTs := some t.tid.ts, commit := none }) else s1) t t.home
  else
    let h := headOf t s.cycle (if ts then 0 else t.issued)
    joinSpawn { s with live := s.live.map (fun x => if x.task.tid = t.tid then { x with st := .waiting, readFrom := [] } else x) } die
      t.tid.dom h

/-- Whether a live task is in no head: it had been dispatched. -/
def dispatched (d : FMap Dispatcher) (l : Live) : Bool :=
  !(d.any (fun x => ((x.2.resident.filterMap (·.head)) ++ (x.2.queues.filterMap (fun q => q.2.spilled)) ++
    x.2.spawn.flatMap (·.2) ++ x.2.due).any (fun h => (headTids h).contains l.task.tid)))

/-- PACKAGE_LOSS_RECOVERY: a spare in this package's place, restored to the last completed mirror point. Its site
arrangement is taken over; system software has set the registers that are no job's again. -/
def lossRecovery (s : State) (pkg : Nat) : State :=
  match s.host.mirror with
  | none => s
  | some m =>
    if pkg ≠ ownPkg s then s
    else
      let s1 : State := { State.reset with
        siteMap := s.siteMap, fmap := s.fmap, mem := m.mem, tags := m.tags, poison := m.poison, linePoison := m.linePoison
        dev := m.dev ++ s.dev.filter (fun r => !decide (r.1 < 0x100800))
        disp := m.disp.map (fun d => (d.1, { d.2 with saved := [] }))
        engines := m.engines, domains := m.domains, live := m.live
        fab := { m.fab with endps := m.fab.endps.map (fun e => (e.1, { e.2 with bound := none, last := none })) }
        copyNext := s.copyNext, cycle := s.cycle, draws := s.draws
        host := { HostSt.reset with
          up := s.host.up, mirror := some m, points := s.host.pointsDone, pointsDone := s.host.pointsDone, pointAt := s.cycle } }
      (m.live.filter (dispatched m.disp)).foldl rerun s1

/-! ## Hosts (R413-R417, R427) -/

/-- Counts a dropped host write in DENY, saturating (R416). -/
def countDeny (s : State) : State :=
  let v := dev s 0x100A00
  if bits v 47 32 = 0xFFFF then s else setDev s 0x100A00 (BitVec.ofNat 64 (v + 2 ^ 32))

/-- The answer to a host port's access (R412, R413). -/
def answer (s : State) (port : Nat) (x : Answer) : State := { s with host := { s.host with answers := s.host.answers ++ [(port, x)] } }

/-- A host's write of a register: applied for the owner of HSEM, else dropped and counted; HSEM takes none. One that the register refuses
(R410) is none. -/
def hostWrite (s : State) (a : HostAcc) (v : Nat) : State :=
  if a.off / 8 * 8 = 0x100A00 then s
  else if dev s 0x100A00 % 4 ≠ a.port + 1 then countDeny s
  else
    match regWrite s a.off a.size v with
    | .ok s1 => s1
    | .error _ => s

/-- HOST_BAR_ACCESS: what is no aligned 4-byte or 8-byte access completes with Unsupported Request, and an unassigned offset reads 0. A
CAS, a 32-bit or 64-bit AtomicOp, completes with the old value, and at an unassigned offset compares 0 and writes nothing. -/
def barAccess (s : State) (a : HostAcc) : State :=
  if 2 ≤ a.port then s
  else if (a.size ≠ 4 ∧ a.size ≠ 8) ∨ a.off % a.size ≠ 0 then answer s a.port .unsupported
  else if regAssigned a.off = false then answer s a.port (if a.write.isSome && a.expected.isNone then .done else .data 0)
  else
    let old := regView s (a.off / 8 * 8) / 2 ^ (8 * (a.off % 8)) % 2 ^ (8 * a.size)
    match a.write, a.expected with
    | none, _ => answer (regRead s a.off a.size).2 a.port (.data (regRead s a.off a.size).1)
    | some v, none => answer (hostWrite s a v) a.port .done
    | some v, some e =>
      let s1 :=
        if a.off / 8 * 8 = 0x100A00 then
          if a.off = 0x100A00 ∧ a.size = 4 then (hsemCas s (if a.port = 0 then .p0 else .p1) (e % 2 ^ 32) (v % 2 ^ 32)).2 else s
        else if old = e % 2 ^ (8 * a.size) then hostWrite s a v
        else s
      answer s1 a.port (.data old)

/-- CXL_MEM_ACCESS: a host's read or write of HBM at its home; CXL.mem has no other (Table 14-1). A read completes with the bytes, or with
poison, and may leave the line in the host's cache; a write takes it from the other port's. -/
def cxlAccess (s : State) (a : HostAcc) : State :=
  if 2 ≤ a.port ∨ !getD s.host.up false a.port ∨ a.size = 0 ∨ 64 < a.size ∨ 64 < a.off % 64 + a.size ∨ 2 ^ 39 < a.off + a.size ∨
    a.expected.isSome then s
  else
    let loc := locHbm a.off
    match a.write with
    | none =>
      if !mirrored s then s
      else
        let r := homeRead s loc a.size
        let s1 := { r.2 with host := { r.2.host with held := put r.2.host.held (loc / 64) a.port } }
        answer s1 a.port (if poisoned r.2 loc a.size then .poison else .data (natOfBytes r.1))
    | some v =>
      let s1 := homeWrite s loc (bytesOfNat a.size v)
      answer { s1 with host := { s1.host with
          held := if getD s.host.held 2 (loc / 64) = a.port then s.host.held else del s.host.held (loc / 64) } } a.port .done

/-- BISNP_RESPONSE: a port gives up the lowest line of a die that it holds. -/
def bisnp (s : State) (die : Nat) : State :=
  match s.host.held.find? (fun h => homeDie (64 * h.1) = die) with
  | none => s
  | some h => { s with host := { s.host with held := del s.host.held h.1 } }

/-- A CXL.cache request that ends with an error, or in a timeout: its requester's access faults (R414). A context's number is its cid, an
AGT's 4096 + that of its TLB. -/
def requestFails (s : State) (req : Nat) : State := { s with host := { s.host with bad := s.host.bad ++ [req] } }

/-- HOST_LINK_DOWN: HSEM is released where the port owns it (R415). -/
def linkLost (s : State) (port : Nat) : State :=
  if 2 ≤ port then s
  else
    let s1 := { s with host := { s.host with up := setD s.host.up false port false } }
    let v := dev s1 0x100A00
    if v % 4 = port + 1 then
      setDev s1 0x100A00 (BitVec.ofNat 64 (bits v 63 32 * 2 ^ 32 + (bits v 31 16 + 1) % 65536 * 2 ^ 16))
    else s1

/-- HOST_LINK_UP: a port trains once HBM has (Table 14-8). -/
def linkFound (s : State) (port : Nat) : State :=
  if 2 ≤ port ∨ !bit (dev s 0x100A18) 1 then s else { s with host := { s.host with up := setD s.host.up false port true } }

/-! ## Links (R418, R424, R427) -/

/-- LNKST with UP, LANES and DEG. -/
def setLink (s : State) (port lanes : Nat) (up : Bool) : State :=
  let o := 0x100B00 + 8 * port
  let v := dev s o
  setDev s o (BitVec.ofNat 64 (v / 2 ^ 16 * 2 ^ 16 + (if lanes < 8 then 32 else 0) + lanes * 2 + (if up then 1 else 0)))

/-- A step of bring-up fails, before the boot task is launched: ERR is set, and GO stays without effect (R427). -/
def stepFails (s : State) : State :=
  if s.host.booted then s else { setBoot s 2 with host := { (setBoot s 2).host with failed := true } }

/-- LINK_TRAINED: a port of a dimension with more than one package, while links train and this package is one of the system, once HBM has
trained (Table 14-8). A port that trains to fewer than 4 lanes does not come up (R424), and fails its step. -/
def linkTrained (s : State) (port lanes : Nat) : State :=
  if 12 ≤ port ∨ 8 < lanes ∨ !bit (dev s 0x100A10) 26 ∨ sysSize s ≤ ownPkg s ∨ dimSize s (port / 4) < 2 ∨ !bit (dev s 0x100A18) 1 then s
  else if lanes < 4 then stepFails (setLink s port lanes false)
  else setLink s port lanes true

/-- LANE_FAIL_RESTRIPE: a link of fewer than 4 lanes goes down. -/
def laneFails (s : State) (port : Nat) : State :=
  let n := bits (dev s (0x100B00 + 8 * port)) 4 1
  if 12 ≤ port ∨ n = 0 then s else setLink s port (n - 1) (linkUp s port && decide (4 ≤ n - 1))

/-- FLIT_CRC_REPLAY: the flit is sent again, and counts in RETRY. -/
def flitReplay (s : State) (port : Nat) : State := if port < 12 then countLink s port 16 else s

/-! ## Power (R427) -/

/-- POWER_ON_RESET: fuses give each site's kind, in bits [3:0], and in bit 4 whether it failed in test, by site key. -/
def powerOn (s : State) (fuses : List (Nat × Nat)) : State :=
  let f := fuses.filter (fun x => decide (x.1 < 4 * 2304))
  { State.reset with
    draws := s.draws
    siteMap := f.foldl (fun m x => setD m (runCode Config.siteRuns (x.1 % 2304)) x.1 (x.2 % 16)) []
    fmap := f.foldl (fun m x => setD m false x.1 (bit x.2 4)) [] }

/-! ## The events -/

def execActiveMessageArrive (msg : Message) : State → Host.Outcome State Fault Refusal := runEvent (fun s => messageArrive s msg)
def execUnitFailureDetect (die site : Nat) : State → Host.Outcome State Fault Refusal := runEvent (fun s => fenceSite s die site)
def execMirrorPoint : State → Host.Outcome State Fault Refusal := runEvent mirrorClose
def execMirrorPointAck : State → Host.Outcome State Fault Refusal := runEvent mirrorAck
def execPackageLossRecovery (pkg : Nat) : State → Host.Outcome State Fault Refusal := runEvent (fun s => lossRecovery s pkg)
def execHostBarAccess (acc : HostAcc) : State → Host.Outcome State Fault Refusal := runEvent (fun s => barAccess s acc)
def execCxlMemAccess (acc : HostAcc) : State → Host.Outcome State Fault Refusal := runEvent (fun s => cxlAccess s acc)
def execCxlRequestTimeout (req : Nat) : State → Host.Outcome State Fault Refusal := runEvent (fun s => requestFails s req)
def execHostLinkDown (port : Nat) : State → Host.Outcome State Fault Refusal := runEvent (fun s => linkLost s port)
def execHostLinkUp (port : Nat) : State → Host.Outcome State Fault Refusal := runEvent (fun s => linkFound s port)
def execPacketHop (pkt : Nat) : State → Host.Outcome State Fault Refusal := runEvent (fun s => packetHop s pkt)
def execPacketArrive (port : Nat) (pkt : Packet) : State → Host.Outcome State Fault Refusal :=
  runEvent (fun s => packetArrive s port pkt)
def execFlitCrcReplay (port : Nat) : State → Host.Outcome State Fault Refusal := runEvent (fun s => flitReplay s port)
def execLaneFailRestripe (port : Nat) : State → Host.Outcome State Fault Refusal := runEvent (fun s => laneFails s port)
def execHbmTrainingDone : State → Host.Outcome State Fault Refusal := runEvent (fun s => setBoot s 1)
def execLinkTrained (port lanes : Nat) : State → Host.Outcome State Fault Refusal := runEvent (fun s => linkTrained s port lanes)
def execBisnpResponse (die : Nat) : State → Host.Outcome State Fault Refusal := runEvent (fun s => bisnp s die)

/-- CXL_REQUEST_COMPLETION: data returned or a write acknowledged, which the access's own step gives; or an error. -/
def execCxlRequestCompletion (req : Nat) (ok : Bool) : State → Host.Outcome State Fault Refusal :=
  runEvent (fun s => if ok then s else requestFails s req)

/-- POWER_ON_RESET leaves the state OFF as well (R429). -/
def execPowerOnReset (fuses : List (Nat × Nat)) (s : State) : Host.Outcome State Fault Refusal := .next (powerOn s fuses)

end Sys2Proof.Machine
end

