-- ==== Sys2Proof/Machine/Loader.lean ====
section
/-! DEFINITION. The loader: code objects and the Molroug portable form (spec/08 R248-R255). Where the loader puts a section is
given with the object, and the objects of the job that follow it with it too (DEDUCED, log 27). -/

namespace Sys2Proof.Machine
open Sys2Proof

/-- The objects of a job that are given after one. -/
def laterObjects (o : CodeObject) : List CodeObject := o.later.map (fun x => { bytes := x.1, place := x.2, later := [] })

/-! ## Reading an object (R248-R250) -/

/-- The number in n bytes at an offset; bytes beyond the end read 0. -/
def objNat (b : List Byte) (off n : Nat) : Nat := natOfBytes ((b.drop off).take n)

/-- A section table entry. -/
structure Sect where
  kind : Nat
  al : Nat
  off : Nat
  size : Nat
  msize : Nat
deriving DecidableEq, Repr

/-- The section table. -/
def sectsOf (b : List Byte) : List Sect :=
  (range' 0 (objNat b 16 4)).map (fun i =>
    let o := objNat b 8 8 + 32 * i
    { kind := objNat b o 2, al := objNat b (o + 2) 2, off := objNat b (o + 8) 8, size := objNat b (o + 16) 8
      msize := objNat b (o + 24) 8 })

/-- The header and the section table are well formed (R248). -/
def headerOk (b : List Byte) : Bool :=
  let n := objNat b 16 4
  decide (64 ≤ b.length) && decide (objNat b 0 4 = 0x4F474B41) && decide (objNat b 4 2 = 1) && decide (objNat b 6 2 ≤ 1) &&
    decide (objNat b 24 40 = 0) && decide (objNat b 8 8 + 32 * n ≤ b.length) &&
    (range' 0 n).all (fun i => decide (objNat b (objNat b 8 8 + 32 * i + 4) 4 = 0)) &&
    (sectsOf b).all (fun x => decide (1 ≤ x.kind) && decide (x.kind ≤ 10) && decide (x.al < 64) && decide (x.size ≤ x.msize) &&
      decide (x.off + x.size ≤ b.length))

/-- The entries of a size in the sections of a kind, as offsets in the object. -/
def entriesOf (b : List Byte) (kind sz : Nat) : List Nat :=
  ((sectsOf b).filter (fun x => x.kind = kind)).flatMap (fun x => (range' 0 (x.size / sz)).map (fun i => x.off + sz * i))

/-- The sections of a kind hold whole entries. -/
def whole (b : List Byte) (kind sz : Nat) : Bool := ((sectsOf b).filter (fun x => x.kind = kind)).all (fun x => x.size % sz = 0)

/-- The bytes of a string, up to its zero. -/
def cstr : List Byte → List Byte
  | [] => []
  | b :: r => if b = 0 then [] else b :: cstr r

/-- The strings section. -/
def strings (b : List Byte) : List Byte :=
  match (sectsOf b).find? (fun x => x.kind = 7) with
  | none => []
  | some x => (b.drop x.off).take x.size

/-- A symbol entry (R249). -/
structure ObjSym where
  nameOff : Nat
  name : List Byte
  sec : Nat
  bind : Nat
  value : Nat
deriving DecidableEq, Repr

/-- The symbols of an object. -/
def symsOf (b : List Byte) : List ObjSym :=
  (entriesOf b 6 16).map (fun o =>
    { nameOff := objNat b o 4, name := cstr ((strings b).drop (objNat b o 4)), sec := objNat b (o + 4) 2, bind := objNat b (o + 6) 1
      value := objNat b (o + 8) 8 })

/-- The images of a graph section: offsets from its start, and word counts (Table 12-2). -/
def imagesOf (b : List Byte) : Nat → Nat → Nat → List (Nat × Nat)
  | 0, _, _ => []
  | f + 1, o, e =>
    if e < o + 32 then []
    else
      let nw := objNat b (o + 4) 4
      (o, nw) :: imagesOf b f ((o + 32 + 4 * nw + 31) / 32 * 32) e

/-- The graph section holds whole images, each with a header of Table 12-2: one word or more, reserved bits 0. -/
def imagesOk (b : List Byte) : Nat → Nat → Nat → Bool
  | 0, _, _ => true
  | f + 1, o, e =>
    if e ≤ o then true
    else
      let nx := o + 32 + 4 * objNat b (o + 4) 4
      decide (o + 32 ≤ e) && decide (nx ≤ e) && decide (0 < objNat b (o + 4) 4) && decide (bits (objNat b o 2) 15 14 = 0) &&
        decide (objNat b (o + 24) 8 = 0) && imagesOk b f ((nx + 31) / 32 * 32) e

/-- The bytes of a patched field (R249). -/
def relWidth (kind : Nat) : Nat := if kind = 1 then 8 else 4

/-- The entries of every section are those of Table 8-15, with reserved bytes 0 and fields in range (R249, R250). -/
def entriesOk (b : List Byte) : Bool :=
  let ss := sectsOf b
  let n := (symsOf b).length
  let sym (o : Nat) : Bool := decide (objNat b o 4 < n)
  decide ((ss.filter (fun x => x.kind = 6)).length ≤ 1) && decide ((ss.filter (fun x => x.kind = 7)).length ≤ 1) &&
    whole b 4 8 && whole b 6 16 && whole b 8 16 && whole b 9 8 && whole b 10 16 &&
    (entriesOf b 4 8).all (fun o => sym o && decide (objNat b (o + 6) 2 = 0)) &&
    (ss.filter (fun x => x.kind = 5)).all (fun x =>
      decide (x.off % 32 = 0) && imagesOk b (x.size / 32 + 1) x.off (x.off + x.size)) &&
    (entriesOf b 6 16).all (fun o =>
      decide (objNat b o 4 < (strings b).length) && decide (objNat b (o + 6) 1 ≤ 2) && decide (objNat b (o + 7) 1 = 0)) &&
    (entriesOf b 8 16).all (fun o =>
      sym (o + 8) && decide (1 ≤ objNat b (o + 12) 1) && decide (objNat b (o + 12) 1 ≤ 9) && decide (objNat b (o + 13) 3 = 0) &&
        (match ss[objNat b o 2]? with
         | none => false
         | some x => decide (objNat b (o + 2) 6 + relWidth (objNat b (o + 12) 1) ≤ x.size) &&
             (objNat b (o + 12) 1 != 5 || decide (4 ≤ objNat b (o + 2) 6)))) &&
    (entriesOf b 9 8).all (fun o =>
      let sz := objNat b (o + 4) 1
      sym o && decide (8 ≤ sz) && decide (sz ≤ 40) && decide (sz % 8 = 0) && decide (objNat b (o + 5) 3 = 0)) &&
    (entriesOf b 10 16).all (fun o =>
      let l := objNat b (o + 7) 1
      sym o && decide (objNat b (o + 4) 2 < 4096) && decide (objNat b (o + 6) 1 < 4) && decide (4 ≤ l) && decide (l ≤ 16) &&
        decide (objNat b (o + 8) 8 = 0))

/-! ## Symbols and relocations (R249, R252) -/

/-- A symbol's value once placed (R249). -/
def placed (obj : CodeObject) (x : ObjSym) : Nat := ((obj.place[x.sec]?).getD 0 + x.value) % 2 ^ 64

/-- Whether a symbol entry is a definition: its section is one of the object's; else it is a reference (DEDUCED, log 27). -/
def defines (b : List Byte) (x : ObjSym) : Bool := decide (x.sec < (sectsOf b).length)

/-- The symbols known once an object is placed, or the name offset of a symbol that is defined twice (R252). -/
def addSyms (obj : CodeObject) : List Sym → List ObjSym → Except Nat (List Sym)
  | known, [] => .ok known
  | known, x :: r =>
    if !defines obj.bytes x ∨ x.bind = 0 then addSyms obj known r
    else
      match known.find? (fun k => k.name = x.name) with
      | none => addSyms obj (known ++ [{ name := x.name, weak := x.bind = 2, value := placed obj x, entry := x.value }]) r
      | some k => if k.weak ∧ x.bind = 2 then addSyms obj known r else .error x.nameOff

/-- The handler indices filled, or the name offset of a handler whose index is filled twice (R252). -/
def addHandlers (b : List Byte) : List Nat → List Nat → Except Nat (List Nat)
  | known, [] => .ok known
  | known, o :: r =>
    let i := objNat b (o + 4) 2
    if known.contains i then .error (((symsOf b)[objNat b o 4]?).elim 0 (·.nameOff))
    else addHandlers b (known ++ [i]) r

/-- What a symbol of an object stands for: a local one for itself, any other for the definition of its name. -/
def symOf (obj : CodeObject) (known : List Sym) (x : ObjSym) : Option Sym :=
  if defines obj.bytes x ∧ x.bind = 0 then some { name := x.name, weak := false, value := placed obj x, entry := x.value }
  else known.find? (fun k => k.name = x.name)

/-- The placed value that a symbol of an object stands for. -/
def symValue (obj : CodeObject) (known : List Sym) (x : ObjSym) : Option Nat := (symOf obj known x).map (·.value)

/-- Every symbol of an object stands for something. -/
def resolved (known : List Sym) (obj : CodeObject) : Bool := (symsOf obj.bytes).all (fun x => (symValue obj known x).isSome)

/-- The objects that are well formed and define no symbol and fill no handler index a second time. -/
def admitted : List Sym → List Nat → List CodeObject → List CodeObject
  | _, _, [] => []
  | known, hs, o :: r =>
    if !headerOk o.bytes || !entriesOk o.bytes then admitted known hs r
    else
      match addSyms o known (symsOf o.bytes), addHandlers o.bytes hs (entriesOf o.bytes 4 8) with
      | .ok k, .ok h => o :: admitted k h r
      | _, _ => admitted known hs r

/-- The symbols known once objects are loaded after those known before. -/
def symTable (known : List Sym) (objs : List CodeObject) : List Sym :=
  objs.foldl (fun k o => ((addSyms o k (symsOf o.bytes)).toOption).getD k) known

/-- The symbols of a whole job: those known, and those that the later objects define; one whose own references resolve nowhere
is rejected and defines none (R252). Fuel counts the later objects. -/
def jobTable : Nat → List Sym → List CodeObject → List Sym
  | 0, known, objs => symTable known objs
  | f + 1, known, objs => jobTable f known (objs.filter (resolved (symTable known objs)))

/-- The four bytes of a word with new bits [hi:lo]. -/
def patch (v hi lo x : Nat) : Nat := v - bits v hi lo * 2 ^ lo + x % 2 ^ (hi - lo + 1) * 2 ^ lo

/-- The value of a field once patched, with the old value and the field's own address; none where it does not fit (R249). -/
def relocate (kind old s p : Nat) : Option Nat :=
  let split (v : Int) (hi : Bool) : Option Nat :=
    if v < -(2 ^ 33) ∨ 2 ^ 33 - 2 ^ 13 ≤ v then none
    else if hi then some (patch old 19 0 (wrapI 64 (v + 0x2000) / 2 ^ 14))
    else some (patch old 13 0 (wrapI 64 v))
  let branch (w : Nat) : Option Nat :=
    let d := sgn 64 (wrapI 64 ((s : Int) - p))
    if d % 4 ≠ 0 ∨ d / 4 < -(2 ^ (w - 1)) ∨ 2 ^ (w - 1) ≤ d / 4 then none else some (patch old (w - 1) 0 (wrapI 64 (d / 4)))
  match kind with
  | 1 => some ((s + old) % 2 ^ 64)
  | 2 => split (sgn 64 s) true
  | 3 => split (sgn 64 s) false
  | 4 => split (sgn 64 (wrapI 64 ((s : Int) - p))) true
  | 5 => split (sgn 64 (wrapI 64 ((s : Int) - (p - 4 : Int)))) false
  | 6 => branch 14
  | 7 => branch 26
  | 8 => if 2 ^ 32 ≤ s ∨ (2 ^ 32 ≤ s + old ∧ old < 2 ^ 31) then none else some ((s + old) % 2 ^ 32)
  | _ => if 2 ^ 12 ≤ s then none else some (patch old 29 18 s)

/-- Replaces n bytes at an offset. -/
def putBytes (b : List Byte) (off n v : Nat) : List Byte := b.take off ++ bytesOfNat n v ++ b.drop (off + n)

/-- The object's bytes with every relocation made, or a status: UNRES or RELOC with a name offset, NOFIT for a VSITE symbol
that `site`, which gives its site index, maps nowhere. -/
def relocAll (obj : CodeObject) (known : List Sym) (site : Nat → Option Nat) : List Byte → List Nat → Except (Nat × Nat) (List Byte)
  | b, [] => .ok b
  | b, o :: r =>
    let kind := objNat b (o + 12) 1
    match (symsOf obj.bytes)[objNat b (o + 8) 4]?, (sectsOf obj.bytes)[objNat b o 2]? with
    | some x, some sec =>
      match symOf obj known x with
      | none => .error (cUNRES, x.nameOff)
      | some y =>
      match (if kind = 9 then site y.entry else some y.value) with
      | none => .error (cNOFIT, 0)
      | some v =>
        let at_ := sec.off + objNat b (o + 2) 6
        match relocate kind (objNat b at_ (relWidth kind)) v ((obj.place[objNat b o 2]?).getD 0 + objNat b (o + 2) 6) with
        | none => .error (cRELOC, x.nameOff)
        | some nv => relocAll obj known site (putBytes b at_ (relWidth kind) nv) r
    | _, _ => .error (cBADOBJ, 0)

/-! ## Placing (R250-R252) -/

/-- The location that the loader writes for a byte at a VA, in S mode. -/
def loadLoc (s : State) (va : Nat) : Option Nat :=
  match agtXl s 0 (BitVec.ofNat 64 va) .wr 1 1 true with
  | .error _ => none
  | .ok x => some x.loc

/-- Writes bytes at VAs from one up; none where a byte has no page. -/
def loadVa : State → Nat → List Byte → Option State
  | s, _, [] => some s
  | s, va, b :: r =>
    match loadLoc s va with
    | none => none
    | some l => loadVa (homeWrite s l [b]) (va + 1) r

/-- Writes bytes at S-addresses from one up; none where one lies in no bank or operand node. -/
def loadS : State → Nat → List Byte → Option State
  | s, _, [] => some s
  | s, a, b :: r => if 2 ^ 32 ≤ a ∨ sPlace s a = .absent then none else loadS (homeWrite s a [b]) (a + 1) r

/-- Places the sections that lie in memory, each filled with zeros to its size in memory. -/
def placeSects (obj : CodeObject) (b : List Byte) : State → List (Nat × Sect) → Option State
  | s, [] => some s
  | s, (i, x) :: r =>
    let bs := (b.drop x.off).take x.size ++ List.replicate (x.msize - x.size) 0#8
    let at_ := (obj.place[i]?).getD 0
    if x.kind = 1 ∨ x.kind = 2 ∨ x.kind = 3 ∨ x.kind = 5 then
      if at_ % 2 ^ x.al ≠ 0 then none
      else
        match (if x.kind = 3 then loadS s at_ bs else loadVa s at_ bs) with
        | none => none
        | some s1 => placeSects obj b s1 r
    else placeSects obj b s r

/-- Installs handler-table entries: ENTRY and V (R250, Table 8-13). -/
def placeHandlers (obj : CodeObject) (known : List Sym) : State → List Nat → Option State
  | s, [] => some s
  | s, o :: r =>
    let b := obj.bytes
    let v := (((symsOf b)[objNat b o 4]?).bind (symValue obj known)).getD 0
    match loadVa s (bits (dev s 0x100630) 56 4 * 16 + 16 * objNat b (o + 4) 2) (bytesOfNat 16 (v + 2 ^ 64)) with
    | none => none
    | some s1 => placeHandlers obj known s1 r

/-- Installs queue records in the task queue table: EN, DIE, HDR (R250, Table 7-7). -/
def placeQueues (obj : CodeObject) (known : List Sym) : State → List Nat → State
  | s, [] => s
  | s, o :: r =>
    let b := obj.bytes
    let v := (((symsOf b)[objNat b o 4]?).bind (symValue obj known)).getD 0
    let e := 1 + 2 * objNat b (o + 6) 1 + 2 ^ 13 * bits v 56 6
    placeQueues obj known (homeWrite s (locHbm (bits (dev s 0x100600) 38 15 * 2 ^ 15 + 8 * objNat b (o + 4) 2)) (bytesOfNat 8 e)) r

/-- What the loader makes of an object: a status with a name offset, or the state with it placed; a placement that fails is
NOFIT (DEDUCED, log 27). `later` are the objects of the job that follow it; `embed` rewrites the object's bytes for the sites
chosen. -/
def loadWith (s : State) (obj : CodeObject) (later : List CodeObject) (site : Nat → Option Nat)
    (embed : List Byte → Option (List Byte)) : Except (Nat × Nat) State :=
  let b := obj.bytes
  if !headerOk b || !entriesOk b then .error (cBADOBJ, 0)
  else
    match addSyms obj s.host.syms (symsOf b), addHandlers b s.host.handlers (entriesOf b 4 8) with
    | .error n, _ => .error (cDUPSYM, n)
    | _, .error n => .error (cDUPSYM, n)
    | .ok own, .ok hs =>
      let known := jobTable later.length own (admitted own hs later)
      match (symsOf b).find? (fun x => (symValue obj known x).isNone) with
      | some x => .error (cUNRES, x.nameOff)
      | none =>
        match embed b with
        | none => .error (cNOFIT, 0)
        | some b1 =>
          match relocAll obj known site b1 (entriesOf b 8 16) with
          | .error e => .error e
          | .ok b2 =>
            match (placeSects obj b2 s ((range' 0 (sectsOf b).length).zip (sectsOf b))).bind
              (fun s1 => placeHandlers obj known s1 (entriesOf b 4 8)) with
            | none => .error (cNOFIT, 0)
            | some s1 =>
              let s2 := placeQueues obj known s1 (entriesOf b 10 16)
              .ok { s2 with host := { s2.host with syms := own, handlers := hs } }

/-- Records what came of an object: its index counts, and a rejection is reported (R252). -/
def loaded (s : State) (r : Except (Nat × Nat) State) : State :=
  match r with
  | .ok s1 => { s1 with host := { s1.host with objects := s1.host.objects + 1 } }
  | .error (code, n) =>
    { s with host := { s.host with objects := s.host.objects + 1, status := s.host.status ++ [(code, s.host.objects, n)] } }

/-- An object's MOLR flag. -/
def isMolr (b : List Byte) : Bool := bit (objNat b 6 2) 0

/-- Loads an object. A Molroug module is not loaded so: it is embedded. -/
def loaderLoad (s : State) (obj : CodeObject) (later : List CodeObject) : State :=
  if headerOk obj.bytes && isMolr obj.bytes then s else loaded s (loadWith s obj later some some)

/-! ## The Molroug portable form (R253-R255) -/

/-- The rows of the virtual site pattern (Table 8-14), as codes of Table 12-1. -/
def virtualRows : List (List Nat) :=
  [[0xA, 0xA, 0xB, 1, 2, 0xB, 0xA, 0xA],
   [0xA, 0xA, 0xB, 7, 4, 0xB, 0xA, 0xA],
   [0xB, 0xE, 0xB, 1, 5, 0xB, 9, 0xB],
   [0xA, 0xB, 6, 2, 3, 8, 0xB, 0xA],
   [0xA, 0xB, 7, 1, 1, 7, 0xB, 0xA],
   [0xB, 0xE, 0xB, 4, 5, 0xB, 9, 0xB],
   [0xA, 0xA, 0xE, 6, 2, 9, 0xA, 0xA],
   [0xB, 0xA, 0xE, 1, 9, 0xB, 0xA, 0xB]]

/-- The type of virtual site 32 y + x (R254). -/
def virtualKind (v : Nat) : Nat := (((virtualRows[v / 32 % 8]?).getD [])[v % 8]?).getD 0

/-- A map of virtual to physical sites is an embedding: distinct sites of the same type, none fenced out. -/
def sitesOk (s : State) (sites : List (Nat × Nat)) : Bool :=
  decide ((sites.map (·.1)).Nodup) && decide ((sites.map (·.2)).Nodup) &&
    sites.all (fun x => decide (x.1 < 1024) && decide (x.2 < 4 * 2304) && !fenced s x.2 &&
      decide (siteKind s (x.2 / 2304) (x.2 % 2304) = virtualKind x.1))

/-- The virtual site of a relative site of an image (DEDUCED, log 27). -/
def virtualOf (r : Nat) : Option Nat := if 32 ≤ r / 64 ∨ 32 ≤ r % 64 then none else some (32 * (r / 64) + r % 64)

/-- Whether a relative site of an image is that of a task core. -/
def virtualTc (r : Nat) : Bool := (virtualOf r).any (fun v => virtualKind v == 0xE)

/-- The words of an image: relative site, context in force, at a task core's site the endpoint, field, value (R347, R351, R378). -/
def imageWords (ws : List Nat) : List (Nat × Nat × Nat × Nat) :=
  (ws.foldl (fun (acc : List (Nat × Nat × Nat × Nat) × FMap Nat) w =>
    let r := bits w 31 20
    let f := bits w 19 14
    let sel := f = (if virtualTc r then 0x10 else 0)
    let ctx := if sel then bits w (if virtualTc r then 3 else 1) 0 else getD acc.2 0 r
    (acc.1 ++ [(r, ctx, f, bits w 13 0)], if sel then put acc.2 r ctx else acc.2)) ([], [])).1

/-- Whether an output of a site's context leads to a circuit: its ODEST then holds a circuit number (Table 12-3). -/
def toCircuit (ws : List (Nat × Nat × Nat × Nat)) (r ctx n : Nat) : Bool :=
  match (ws.filter (fun w => w.1 = r ∧ w.2.1 = ctx ∧ w.2.2.1 = 6 + n)).getLast? with
  | some w => bit w.2.2.2 8
  | none => false

/-- The value of the last word of a field of a site's context, or a reset value. -/
def wordOf (ws : List (Nat × Nat × Nat × Nat)) (r ctx f d : Nat) : Nat :=
  ((ws.filter (fun w => w.1 = r ∧ w.2.1 = ctx ∧ w.2.2.1 = f)).getLast?).elim d (·.2.2.2)

/-- The links of every channel that the words of an image configure, by virtual channel, each once for its channel: from the
sites its relative sites are mapped to, over the token mesh; a task core's output endpoints likewise (R353, R378). -/
def imageLinks (ws : List (Nat × Nat × Nat × Nat)) (phys : Nat → Nat) : List (Nat × Nat × Nat) :=
  let path (r : Nat) (ds : List Nat) (vc : Nat) : List (Nat × Nat × Nat) :=
    (ds.flatMap (fun d => pathLinks 96 (phys r % 2304) (phys (d % 4096) % 2304))).eraseDups.map (fun l => (l.1, l.2, vc))
  ((ws.filter (fun w => 6 ≤ w.2.2.1 ∧ w.2.2.1 ≤ 9)).map (fun w => (w.1, w.2.1, w.2.2.1 - 6))).eraseDups.flatMap (fun c =>
    let at_ := wordOf ws c.1 c.2.1 (6 + c.2.2) 0x60
    let ds := wordOf ws c.1 c.2.1 (2 + c.2.2) 0 :: (if bit at_ 9 then [wordOf ws c.1 c.2.1 (0xA + c.2.2) 0] else [])
    if bits at_ 6 5 = 3 ∨ bit at_ 8 then [] else path c.1 ds (bits at_ 0 0)) ++
  ((ws.filter (fun w => virtualTc w.1 ∧ w.2.2.1 = 0x11)).map (fun w => (w.1, w.2.1))).eraseDups.flatMap (fun e =>
    let cf := wordOf ws e.1 e.2 0x11 0
    if bits cf 1 0 = 3 then path e.1 [wordOf ws e.1 e.2 0x12 0] (bits cf 4 4) else [])

/-- An image rewritten for the sites that its relative sites are mapped to: none unless all are mapped, to one die, since one
stream configures sites of one die (R336), and each of its channels has the virtual channel of its links alone. Base and size
of its region are those of the smallest that holds them. -/
def embedImage (sites : List (Nat × Nat)) (b : List Byte) (im : Nat × Nat) : Option (List Byte) :=
  let ws := imageWords ((range' 0 im.2).map (fun i => objNat b (im.1 + 32 + 4 * i) 4))
  let phys (r : Nat) : Option Nat := (virtualOf r).bind (look sites)
  let dest (w : Nat × Nat × Nat × Nat) : Bool :=
    (decide (2 ≤ w.2.2.1) && decide (w.2.2.1 ≤ 5) && !toCircuit ws w.1 w.2.1 (w.2.2.1 - 2)) ||
      (decide (0xA ≤ w.2.2.1) && decide (w.2.2.1 ≤ 0xD)) || (virtualTc w.1 && decide (w.2.2.1 = 0x12))
  let rs := ws.map (·.1) ++ (ws.filter dest).map (fun w => w.2.2.2 % 4096)
  let ps := rs.filterMap phys
  match ps with
  | [] => none
  | p0 :: _ =>
    if ps.length ≠ rs.length ∨ ps.any (fun p => p / 2304 ≠ p0 / 2304) ∨
        ¬ (imageLinks ws (fun r => (phys r).getD 0)).Nodup then none
    else
      let row (p : Nat) : Nat := p % 2304 / 48
      let col (p : Nat) : Nat := p % 2304 % 48
      let r0 := ps.foldl (fun m p => min m (row p)) 48
      let c0 := ps.foldl (fun m p => min m (col p)) 48
      let h := ps.foldl (fun m p => max m (row p - r0)) 0
      let w := ps.foldl (fun m p => max m (col p - c0)) 0
      let rel (r : Nat) : Nat :=
        let p := (phys r).getD 0
        (row p - r0) * 64 + (col p - c0)
      let word (x : Nat × Nat × Nat × Nat) : Nat :=
        rel x.1 * 2 ^ 20 + x.2.2.1 * 2 ^ 14 + (if dest x then x.2.2.2 / 4096 * 4096 + rel (x.2.2.2 % 4096) else x.2.2.2)
      let hd := objNat b im.1 4 / 2 ^ 12 * 2 ^ 12 + h * 64 + w
      some (b.take im.1 ++ bytesOfNat 4 hd ++ (b.drop (im.1 + 4)).take 28 ++ ws.flatMap (fun x => bytesOfNat 4 (word x)) ++
        b.drop (im.1 + 32 + 4 * im.2))

/-- All images of a module rewritten. -/
def embedAll (sites : List (Nat × Nat)) : List Byte → List (Nat × Nat) → Option (List Byte)
  | b, [] => some b
  | b, im :: r =>
    match embedImage sites b im with
    | none => none
    | some b1 => embedAll sites b1 r

/-- The module's bytes for the sites chosen: every site of its images must have one. -/
def embedModule (s : State) (sites : List (Nat × Nat)) (b : List Byte) : Option (List Byte) :=
  if !sitesOk s sites then none
  else
    embedAll sites b (((sectsOf b).filter (fun x => x.kind = 5)).flatMap (fun x => imagesOf b (x.size / 32 + 1) x.off (x.off + x.size)))

/-- The bindings of a module's message types: each to a task queue, the module's own first queue record or queue 0, and to the handler
index that its handler table gives it (R253, R255; DESIGN CHOICE, log 27). -/
def bindTypes (b : List Byte) : List (Nat × Nat × Nat) :=
  let q := match entriesOf b 10 16 with
    | [] => 0
    | o :: _ => objNat b (o + 4) 2
  (entriesOf b 4 8).map (fun o => (objNat b (o + 4) 2, q, objNat b (o + 4) 2))

/-- Embeds a Molroug module, its message types bound; an object that is none is not embedded. -/
def molrougLoad (s : State) (obj : CodeObject) (later : List CodeObject) (sites : List (Nat × Nat)) : State :=
  if headerOk obj.bytes && !isMolr obj.bytes then s
  else
    loaded s ((loadWith s obj later (fun v => (look sites v).map (· % 2304)) (embedModule s sites)).map (fun s1 =>
      { s1 with host := { s1.host with binds := s1.host.binds ++ bindTypes obj.bytes } }))

/-! ## The events -/

def execLoaderLoadObject (obj : CodeObject) : State → Host.Outcome State Fault Refusal :=
  runEvent (fun s => loaderLoad s obj (laterObjects obj))
def execMolrougEmbed (obj : CodeObject) (sites : List (Nat × Nat)) : State → Host.Outcome State Fault Refusal :=
  runEvent (fun s => molrougLoad s obj (laterObjects obj) sites)

end Sys2Proof.Machine
end

