-- ==== Sys2Proof/Machine/Dispatch.lean ====
section
/-! DEFINITION. Every instruction and event row of spec/opcode_table.json, and the meaning it has. -/

namespace Sys2Proof.Machine
open Sys2Proof

/-- What an instruction of the current context, or a step of another agent, does. -/
def exec (i : Instr) (s : State) : Host.Outcome State Fault Refusal :=
  match i with
  | .add o => Sys2Proof.Machine.execAdd o s
  | .sub o => Sys2Proof.Machine.execSub o s
  | .mul o => Sys2Proof.Machine.execMul o s
  | .mulhi o => Sys2Proof.Machine.execMulhi o s
  | .mulhiu o => Sys2Proof.Machine.execMulhiu o s
  | .div o => Sys2Proof.Machine.execDiv o s
  | .divu o => Sys2Proof.Machine.execDivu o s
  | .rem o => Sys2Proof.Machine.execRem o s
  | .remu o => Sys2Proof.Machine.execRemu o s
  | .and o => Sys2Proof.Machine.execAnd o s
  | .or o => Sys2Proof.Machine.execOr o s
  | .xor o => Sys2Proof.Machine.execXor o s
  | .shl o => Sys2Proof.Machine.execShl o s
  | .shr o => Sys2Proof.Machine.execShr o s
  | .sra o => Sys2Proof.Machine.execSra o s
  | .shli o => Sys2Proof.Machine.execShli o s
  | .shri o => Sys2Proof.Machine.execShri o s
  | .srai o => Sys2Proof.Machine.execSrai o s
  | .slt o => Sys2Proof.Machine.execSlt o s
  | .sltu o => Sys2Proof.Machine.execSltu o s
  | .min o => Sys2Proof.Machine.execMin o s
  | .max o => Sys2Proof.Machine.execMax o s
  | .minu o => Sys2Proof.Machine.execMinu o s
  | .maxu o => Sys2Proof.Machine.execMaxu o s
  | .sel o => Sys2Proof.Machine.execSel o s
  | .lea0 o => Sys2Proof.Machine.execLea0 o s
  | .lea1 o => Sys2Proof.Machine.execLea1 o s
  | .lea2 o => Sys2Proof.Machine.execLea2 o s
  | .lea3 o => Sys2Proof.Machine.execLea3 o s
  | .clz o => Sys2Proof.Machine.execClz o s
  | .ctz o => Sys2Proof.Machine.execCtz o s
  | .popc o => Sys2Proof.Machine.execPopc o s
  | .sxtB o => Sys2Proof.Machine.execSxtB o s
  | .sxtH o => Sys2Proof.Machine.execSxtH o s
  | .sxtW o => Sys2Proof.Machine.execSxtW o s
  | .zxtB o => Sys2Proof.Machine.execZxtB o s
  | .zxtH o => Sys2Proof.Machine.execZxtH o s
  | .zxtW o => Sys2Proof.Machine.execZxtW o s
  | .addi o => Sys2Proof.Machine.execAddi o s
  | .andi o => Sys2Proof.Machine.execAndi o s
  | .ori o => Sys2Proof.Machine.execOri o s
  | .xori o => Sys2Proof.Machine.execXori o s
  | .slti o => Sys2Proof.Machine.execSlti o s
  | .bfx o => Sys2Proof.Machine.execBfx o s
  | .bfxS o => Sys2Proof.Machine.execBfxS o s
  | .bfi o => Sys2Proof.Machine.execBfi o s
  | .lih o => Sys2Proof.Machine.execLih o s
  | .addpc o => Sys2Proof.Machine.execAddpc o s
  | .beq o => Sys2Proof.Machine.execBeq o s
  | .bne o => Sys2Proof.Machine.execBne o s
  | .blt o => Sys2Proof.Machine.execBlt o s
  | .bge o => Sys2Proof.Machine.execBge o s
  | .bltu o => Sys2Proof.Machine.execBltu o s
  | .bgeu o => Sys2Proof.Machine.execBgeu o s
  | .bqe o => Sys2Proof.Machine.execBqe o s
  | .bpa o => Sys2Proof.Machine.execBpa o s
  | .bpn o => Sys2Proof.Machine.execBpn o s
  | .loop o => Sys2Proof.Machine.execLoop o s
  | .jmp o => Sys2Proof.Machine.execJmp o s
  | .call o => Sys2Proof.Machine.execCall o s
  | .jmpr o => Sys2Proof.Machine.execJmpr o s
  | .callr o => Sys2Proof.Machine.execCallr o s
  | .ret o => Sys2Proof.Machine.execRet o s
  | .enter o => Sys2Proof.Machine.execEnter o s
  | .leave o => Sys2Proof.Machine.execLeave o s
  | .pand o => Sys2Proof.Machine.execPand o s
  | .por o => Sys2Proof.Machine.execPor o s
  | .pxor o => Sys2Proof.Machine.execPxor o s
  | .pnot o => Sys2Proof.Machine.execPnot o s
  | .pcnt o => Sys2Proof.Machine.execPcnt o s
  | .pseti o => Sys2Proof.Machine.execPseti o s
  | .ldf o => Sys2Proof.Machine.execLdf o s
  | .ldfC o => Sys2Proof.Machine.execLdfC o s
  | .ste o => Sys2Proof.Machine.execSte o s
  | .fesetF o => Sys2Proof.Machine.execFesetF o s
  | .fesetE o => Sys2Proof.Machine.execFesetE o s
  | .feqry o => Sys2Proof.Machine.execFeqry o s
  | .pref o => Sys2Proof.Machine.execPref o s
  | .vld o => Sys2Proof.Machine.execVld o s
  | .vst o => Sys2Proof.Machine.execVst o s
  | .vldst o => Sys2Proof.Machine.execVldst o s
  | .vgath o => Sys2Proof.Machine.execVgath o s
  | .vscat o => Sys2Proof.Machine.execVscat o s
  | .stbm o => Sys2Proof.Machine.execStbm o s
  | .ldbm o => Sys2Proof.Machine.execLdbm o s
  | .fence o => Sys2Proof.Machine.execFence o s
  | .fenceq o => Sys2Proof.Machine.execFenceq o s
  | .synci o => Sys2Proof.Machine.execSynci o s
  | .prefS o => Sys2Proof.Machine.execPrefS o s
  | .vldS o => Sys2Proof.Machine.execVldS o s
  | .vstS o => Sys2Proof.Machine.execVstS o s
  | .vldstS o => Sys2Proof.Machine.execVldstS o s
  | .vgathS o => Sys2Proof.Machine.execVgathS o s
  | .vscatS o => Sys2Proof.Machine.execVscatS o s
  | .stbmS o => Sys2Proof.Machine.execStbmS o s
  | .ldbmS o => Sys2Proof.Machine.execLdbmS o s
  | .amoAddW o => Sys2Proof.Machine.execAmoAddW o s
  | .amoMinW o => Sys2Proof.Machine.execAmoMinW o s
  | .amoMaxW o => Sys2Proof.Machine.execAmoMaxW o s
  | .amoMinuW o => Sys2Proof.Machine.execAmoMinuW o s
  | .amoMaxuW o => Sys2Proof.Machine.execAmoMaxuW o s
  | .amoAndW o => Sys2Proof.Machine.execAmoAndW o s
  | .amoOrW o => Sys2Proof.Machine.execAmoOrW o s
  | .amoXorW o => Sys2Proof.Machine.execAmoXorW o s
  | .amoSwapW o => Sys2Proof.Machine.execAmoSwapW o s
  | .amoFaddF32 o => Sys2Proof.Machine.execAmoFaddF32 o s
  | .amoFaddBf16 o => Sys2Proof.Machine.execAmoFaddBf16 o s
  | .casW o => Sys2Proof.Machine.execCasW o s
  | .amaxrstW o => Sys2Proof.Machine.execAmaxrstW o s
  | .amoAddWS o => Sys2Proof.Machine.execAmoAddWS o s
  | .amoMinWS o => Sys2Proof.Machine.execAmoMinWS o s
  | .amoMaxWS o => Sys2Proof.Machine.execAmoMaxWS o s
  | .amoMinuWS o => Sys2Proof.Machine.execAmoMinuWS o s
  | .amoMaxuWS o => Sys2Proof.Machine.execAmoMaxuWS o s
  | .amoAndWS o => Sys2Proof.Machine.execAmoAndWS o s
  | .amoOrWS o => Sys2Proof.Machine.execAmoOrWS o s
  | .amoXorWS o => Sys2Proof.Machine.execAmoXorWS o s
  | .amoSwapWS o => Sys2Proof.Machine.execAmoSwapWS o s
  | .amoFaddF32S o => Sys2Proof.Machine.execAmoFaddF32S o s
  | .amoFaddBf16S o => Sys2Proof.Machine.execAmoFaddBf16S o s
  | .casWS o => Sys2Proof.Machine.execCasWS o s
  | .amaxrstWS o => Sys2Proof.Machine.execAmaxrstWS o s
  | .amoAddD o => Sys2Proof.Machine.execAmoAddD o s
  | .amoMinD o => Sys2Proof.Machine.execAmoMinD o s
  | .amoMaxD o => Sys2Proof.Machine.execAmoMaxD o s
  | .amoMinuD o => Sys2Proof.Machine.execAmoMinuD o s
  | .amoMaxuD o => Sys2Proof.Machine.execAmoMaxuD o s
  | .amoAndD o => Sys2Proof.Machine.execAmoAndD o s
  | .amoOrD o => Sys2Proof.Machine.execAmoOrD o s
  | .amoXorD o => Sys2Proof.Machine.execAmoXorD o s
  | .amoSwapD o => Sys2Proof.Machine.execAmoSwapD o s
  | .casD o => Sys2Proof.Machine.execCasD o s
  | .amaxrstD o => Sys2Proof.Machine.execAmaxrstD o s
  | .amoAddDS o => Sys2Proof.Machine.execAmoAddDS o s
  | .amoMinDS o => Sys2Proof.Machine.execAmoMinDS o s
  | .amoMaxDS o => Sys2Proof.Machine.execAmoMaxDS o s
  | .amoMinuDS o => Sys2Proof.Machine.execAmoMinuDS o s
  | .amoMaxuDS o => Sys2Proof.Machine.execAmoMaxuDS o s
  | .amoAndDS o => Sys2Proof.Machine.execAmoAndDS o s
  | .amoOrDS o => Sys2Proof.Machine.execAmoOrDS o s
  | .amoXorDS o => Sys2Proof.Machine.execAmoXorDS o s
  | .amoSwapDS o => Sys2Proof.Machine.execAmoSwapDS o s
  | .casDS o => Sys2Proof.Machine.execCasDS o s
  | .amaxrstDS o => Sys2Proof.Machine.execAmaxrstDS o s
  | .ldB o => Sys2Proof.Machine.execLdB o s
  | .ldH o => Sys2Proof.Machine.execLdH o s
  | .ldW o => Sys2Proof.Machine.execLdW o s
  | .ldD o => Sys2Proof.Machine.execLdD o s
  | .stB o => Sys2Proof.Machine.execStB o s
  | .stH o => Sys2Proof.Machine.execStH o s
  | .stW o => Sys2Proof.Machine.execStW o s
  | .stD o => Sys2Proof.Machine.execStD o s
  | .ldsB o => Sys2Proof.Machine.execLdsB o s
  | .ldsH o => Sys2Proof.Machine.execLdsH o s
  | .ldsW o => Sys2Proof.Machine.execLdsW o s
  | .ldsD o => Sys2Proof.Machine.execLdsD o s
  | .stsB o => Sys2Proof.Machine.execStsB o s
  | .stsH o => Sys2Proof.Machine.execStsH o s
  | .stsW o => Sys2Proof.Machine.execStsW o s
  | .stsD o => Sys2Proof.Machine.execStsD o s
  | .vaddF32 o => Sys2Proof.Machine.execVaddF32 o s
  | .vsubF32 o => Sys2Proof.Machine.execVsubF32 o s
  | .vmulF32 o => Sys2Proof.Machine.execVmulF32 o s
  | .vfmaF32 o => Sys2Proof.Machine.execVfmaF32 o s
  | .vfmsF32 o => Sys2Proof.Machine.execVfmsF32 o s
  | .vminF32 o => Sys2Proof.Machine.execVminF32 o s
  | .vmaxF32 o => Sys2Proof.Machine.execVmaxF32 o s
  | .vabsF32 o => Sys2Proof.Machine.execVabsF32 o s
  | .vnegF32 o => Sys2Proof.Machine.execVnegF32 o s
  | .vcmpEqF32 o => Sys2Proof.Machine.execVcmpEqF32 o s
  | .vcmpNeF32 o => Sys2Proof.Machine.execVcmpNeF32 o s
  | .vcmpLtF32 o => Sys2Proof.Machine.execVcmpLtF32 o s
  | .vcmpLeF32 o => Sys2Proof.Machine.execVcmpLeF32 o s
  | .vredAddF32 o => Sys2Proof.Machine.execVredAddF32 o s
  | .vredMaxF32 o => Sys2Proof.Machine.execVredMaxF32 o s
  | .vredMinF32 o => Sys2Proof.Machine.execVredMinF32 o s
  | .vscanAddF32 o => Sys2Proof.Machine.execVscanAddF32 o s
  | .vrcp o => Sys2Proof.Machine.execVrcp o s
  | .vrsq o => Sys2Proof.Machine.execVrsq o s
  | .vsqrt o => Sys2Proof.Machine.execVsqrt o s
  | .vexp2 o => Sys2Proof.Machine.execVexp2 o s
  | .vlog2 o => Sys2Proof.Machine.execVlog2 o s
  | .vtanh o => Sys2Proof.Machine.execVtanh o s
  | .vscaleF32 o => Sys2Proof.Machine.execVscaleF32 o s
  | .vscaleI32 o => Sys2Proof.Machine.execVscaleI32 o s
  | .vaddI32 o => Sys2Proof.Machine.execVaddI32 o s
  | .vsubI32 o => Sys2Proof.Machine.execVsubI32 o s
  | .vmulI32 o => Sys2Proof.Machine.execVmulI32 o s
  | .vminI32 o => Sys2Proof.Machine.execVminI32 o s
  | .vmaxI32 o => Sys2Proof.Machine.execVmaxI32 o s
  | .vminU32 o => Sys2Proof.Machine.execVminU32 o s
  | .vmaxU32 o => Sys2Proof.Machine.execVmaxU32 o s
  | .vabsI32 o => Sys2Proof.Machine.execVabsI32 o s
  | .vnegI32 o => Sys2Proof.Machine.execVnegI32 o s
  | .vand o => Sys2Proof.Machine.execVand o s
  | .vor o => Sys2Proof.Machine.execVor o s
  | .vxor o => Sys2Proof.Machine.execVxor o s
  | .vnot o => Sys2Proof.Machine.execVnot o s
  | .vshl o => Sys2Proof.Machine.execVshl o s
  | .vshr o => Sys2Proof.Machine.execVshr o s
  | .vsra o => Sys2Proof.Machine.execVsra o s
  | .vcmpEqI32 o => Sys2Proof.Machine.execVcmpEqI32 o s
  | .vcmpNeI32 o => Sys2Proof.Machine.execVcmpNeI32 o s
  | .vcmpLtI32 o => Sys2Proof.Machine.execVcmpLtI32 o s
  | .vcmpLeI32 o => Sys2Proof.Machine.execVcmpLeI32 o s
  | .vcmpLtuI32 o => Sys2Proof.Machine.execVcmpLtuI32 o s
  | .vcmpLeuI32 o => Sys2Proof.Machine.execVcmpLeuI32 o s
  | .vredAddI32 o => Sys2Proof.Machine.execVredAddI32 o s
  | .vredMaxI32 o => Sys2Proof.Machine.execVredMaxI32 o s
  | .vredMinI32 o => Sys2Proof.Machine.execVredMinI32 o s
  | .vscanAddI32 o => Sys2Proof.Machine.execVscanAddI32 o s
  | .vsel o => Sys2Proof.Machine.execVsel o s
  | .vmov o => Sys2Proof.Machine.execVmov o s
  | .vbcast o => Sys2Proof.Machine.execVbcast o s
  | .vextr o => Sys2Proof.Machine.execVextr o s
  | .vins o => Sys2Proof.Machine.execVins o s
  | .vperm o => Sys2Proof.Machine.execVperm o s
  | .vshuf o => Sys2Proof.Machine.execVshuf o s
  | .vcomp o => Sys2Proof.Machine.execVcomp o s
  | .vexpd o => Sys2Proof.Machine.execVexpd o s
  | .vcvt o => Sys2Proof.Machine.execVcvt o s
  | .vlut o => Sys2Proof.Machine.execVlut o s
  | .kldE4m3 o => Sys2Proof.Machine.execKldE4m3 o s
  | .kldBf16 o => Sys2Proof.Machine.execKldBf16 o s
  | .vqdec o => Sys2Proof.Machine.execVqdec o s
  | .vdot4I8 o => Sys2Proof.Machine.execVdot4I8 o s
  | .vdot4E4m3 o => Sys2Proof.Machine.execVdot4E4m3 o s
  | .qbind o => Sys2Proof.Machine.execQbind o s
  | .qbindc o => Sys2Proof.Machine.execQbindc o s
  | .qfree o => Sys2Proof.Machine.execQfree o s
  | .qstat o => Sys2Proof.Machine.execQstat o s
  | .qpeek o => Sys2Proof.Machine.execQpeek o s
  | .qskip o => Sys2Proof.Machine.execQskip o s
  | .qemit o => Sys2Proof.Machine.execQemit o s
  | .qseek o => Sys2Proof.Machine.execQseek o s
  | .tspawn o => Sys2Proof.Machine.execTspawn o s
  | .tspawng o => Sys2Proof.Machine.execTspawng o s
  | .tend o => Sys2Proof.Machine.execTend o s
  | .tabort o => Sys2Proof.Machine.execTabort o s
  | .futres o => Sys2Proof.Machine.execFutres o s
  | .futreg o => Sys2Proof.Machine.execFutreg o s
  | .futjoin o => Sys2Proof.Machine.execFutjoin o s
  | .gjoin o => Sys2Proof.Machine.execGjoin o s
  | .gleave o => Sys2Proof.Machine.execGleave o s
  | .garr o => Sys2Proof.Machine.execGarr o s
  | .gwait o => Sys2Proof.Machine.execGwait o s
  | .barinit o => Sys2Proof.Machine.execBarinit o s
  | .bararr o => Sys2Proof.Machine.execBararr o s
  | .barexp o => Sys2Proof.Machine.execBarexp o s
  | .barwait o => Sys2Proof.Machine.execBarwait o s
  | .rawait o => Sys2Proof.Machine.execRawait o s
  | .rrel o => Sys2Proof.Machine.execRrel o s
  | .rpoll o => Sys2Proof.Machine.execRpoll o s
  | .cpy o => Sys2Proof.Machine.execCpy o s
  | .cpyq o => Sys2Proof.Machine.execCpyq o s
  | .cpyf o => Sys2Proof.Machine.execCpyf o s
  | .msend o => Sys2Proof.Machine.execMsend o s
  | .mxop o => Sys2Proof.Machine.execMxop o s
  | .cfgw o => Sys2Proof.Machine.execCfgw o s
  | .cfgs o => Sys2Proof.Machine.execCfgs o s
  | .gstart o => Sys2Proof.Machine.execGstart o s
  | .gfrz o => Sys2Proof.Machine.execGfrz o s
  | .gthaw o => Sys2Proof.Machine.execGthaw o s
  | .jcancel o => Sys2Proof.Machine.execJcancel o s
  | .gfrzRound o => Sys2Proof.Machine.execGfrzRound o s
  | .trap o => Sys2Proof.Machine.execTrap o s
  | .eret o => Sys2Proof.Machine.execEret o s
  | .mfs o => Sys2Proof.Machine.execMfs o s
  | .mts o => Sys2Proof.Machine.execMts o s
  | .wfe o => Sys2Proof.Machine.execWfe o s
  | .sev o => Sys2Proof.Machine.execSev o s
  | .brk o => Sys2Proof.Machine.execBrk o s
  | .nop o => Sys2Proof.Machine.execNop o s
  | .tlbinvAll o => Sys2Proof.Machine.execTlbinvAll o s
  | .tlbinvVa o => Sys2Proof.Machine.execTlbinvVa o s
  | .tlbinvRng o => Sys2Proof.Machine.execTlbinvRng o s
  | .cinv o => Sys2Proof.Machine.execCinv o s
  | .cwb o => Sys2Proof.Machine.execCwb o s
  | .idle o => Sys2Proof.Machine.execIdle o s
  | .postedAtomicPerformed cid => Sys2Proof.Machine.execPostedAtomicPerformed cid s
  | .patternReadahead cid port => Sys2Proof.Machine.execPatternReadahead cid port s
  | .portStallResume cid => Sys2Proof.Machine.execPortStallResume cid s
  | .ldfRetry cid => Sys2Proof.Machine.execLdfRetry cid s
  | .barwaitRelease cid => Sys2Proof.Machine.execBarwaitRelease cid s
  | .rawaitRelease cid => Sys2Proof.Machine.execRawaitRelease cid s
  | .gwaitRelease cid => Sys2Proof.Machine.execGwaitRelease cid s
  | .wfeWake cid => Sys2Proof.Machine.execWfeWake cid s
  | .wfeTimeout cid => Sys2Proof.Machine.execWfeTimeout cid s
  | .idleExpire cid => Sys2Proof.Machine.execIdleExpire cid s
  | .frontierReached cid => Sys2Proof.Machine.execFrontierReached cid s
  | .deferredFaultDelivery cid => Sys2Proof.Machine.execDeferredFaultDelivery cid s
  | .journalChunkWaitTimeout cid => Sys2Proof.Machine.execJournalChunkWaitTimeout cid s
  | .tsCommit dom => Sys2Proof.Machine.execTsCommit dom s
  | .tsCommitComplete dom => Sys2Proof.Machine.execTsCommitComplete dom s
  | .taskStart cid => Sys2Proof.Machine.execTaskStart cid s
  | .dispatcherTakePacket queue => Sys2Proof.Machine.execDispatcherTakePacket queue s
  | .dispatchSelect die => Sys2Proof.Machine.execDispatchSelect die s
  | .headAging die queue => Sys2Proof.Machine.execHeadAging die queue s
  | .residentHeadRelease die queue => Sys2Proof.Machine.execResidentHeadRelease die queue s
  | .gangTimeout die queue => Sys2Proof.Machine.execGangTimeout die queue s
  | .pipelineRebalance die => Sys2Proof.Machine.execPipelineRebalance die s
  | .siteArbiterPeriod site => Sys2Proof.Machine.execSiteArbiterPeriod site s
  | .jcancelLinearise die => Sys2Proof.Machine.execJcancelLinearise die s
  | .cancelKillTimeout cid => Sys2Proof.Machine.execCancelKillTimeout cid s
  | .jcancelComplete => Sys2Proof.Machine.execJcancelComplete s
  | .walkComplete die => Sys2Proof.Machine.execWalkComplete die s
  | .icacheMissFill core va bad => Sys2Proof.Machine.execIcacheMissFill core va bad s
  | .bankPortRequest bank portF => Sys2Proof.Machine.execBankPortRequest bank portF s
  | .rmwAtomic bank portF => Sys2Proof.Machine.execRmwAtomic bank portF s
  | .rmwAtomicComplete bank => Sys2Proof.Machine.execRmwAtomicComplete bank s
  | .bankScrub word err => Sys2Proof.Machine.execBankScrub word err s
  | .atomicEnginePick cluster => Sys2Proof.Machine.execAtomicEnginePick cluster s
  | .atomicEngineLineFill cluster line => Sys2Proof.Machine.execAtomicEngineLineFill cluster line s
  | .atomicEngineRecall line => Sys2Proof.Machine.execAtomicEngineRecall line s
  | .hostSnoop line => Sys2Proof.Machine.execHostSnoop line s
  | .peerAccessServe acc => Sys2Proof.Machine.execPeerAccessServe acc s
  | .copyQueueTake eng queue => Sys2Proof.Machine.execCopyQueueTake eng queue s
  | .copyQueueStall eng queue => Sys2Proof.Machine.execCopyQueueStall eng queue s
  | .fenceCopyStart eng copy => Sys2Proof.Machine.execFenceCopyStart eng copy s
  | .copyTransfer eng copy => Sys2Proof.Machine.execCopyTransfer eng copy s
  | .copySegmentComplete eng copy seg => Sys2Proof.Machine.execCopySegmentComplete eng copy seg s
  | .copyComplete eng copy => Sys2Proof.Machine.execCopyComplete eng copy s
  | .ringPushRetry eng copy => Sys2Proof.Machine.execRingPushRetry eng copy s
  | .ringRecordAck ring slot => Sys2Proof.Machine.execRingRecordAck ring slot s
  | .barrierUpdate obj => Sys2Proof.Machine.execBarrierUpdate obj s
  | .controlTokenArrive tok => Sys2Proof.Machine.execControlTokenArrive tok s
  | .cqtabWrite v => Sys2Proof.Machine.execCqtabWrite v s
  | .tqtabWrite v => Sys2Proof.Machine.execTqtabWrite v s
  | .ptrootWrite v => Sys2Proof.Machine.execPtrootWrite v s
  | .domcfgWrite dom v => Sys2Proof.Machine.execDomcfgWrite dom v s
  | .registerWrite off v => Sys2Proof.Machine.execRegisterWrite off v s
  | .cfgStreamApply cid => Sys2Proof.Machine.execCfgStreamApply cid s
  | .cfgWordApply cid => Sys2Proof.Machine.execCfgWordApply cid s
  | .paramBlockRead key => Sys2Proof.Machine.execParamBlockRead key s
  | .startTokenArrive key => Sys2Proof.Machine.execStartTokenArrive key s
  | .skipReceived key => Sys2Proof.Machine.execSkipReceived key s
  | .scnFire key => Sys2Proof.Machine.execScnFire key s
  | .isxFire key => Sys2Proof.Machine.execIsxFire key s
  | .uniFire key => Sys2Proof.Machine.execUniFire key s
  | .rptFire key => Sys2Proof.Machine.execRptFire key s
  | .redFire key => Sys2Proof.Machine.execRedFire key s
  | .vrdFire key => Sys2Proof.Machine.execVrdFire key s
  | .cmbFire key => Sys2Proof.Machine.execCmbFire key s
  | .lwrFire key => Sys2Proof.Machine.execLwrFire key s
  | .rowFire key => Sys2Proof.Machine.execRowFire key s
  | .memopFire key => Sys2Proof.Machine.execMemopFire key s
  | .joinFire key => Sys2Proof.Machine.execJoinFire key s
  | .periodCompletion key => Sys2Proof.Machine.execPeriodCompletion key s
  | .madderBandDecode key => Sys2Proof.Machine.execMadderBandDecode key s
  | .matrixOpFire key => Sys2Proof.Machine.execMatrixOpFire key s
  | .matrixChunkComplete key => Sys2Proof.Machine.execMatrixChunkComplete key s
  | .drainComplete key => Sys2Proof.Machine.execDrainComplete key s
  | .mxopMma key => Sys2Proof.Machine.execMxopMma key s
  | .mxopDrain key => Sys2Proof.Machine.execMxopDrain key s
  | .mxopZero key => Sys2Proof.Machine.execMxopZero key s
  | .roundMarkerReceive key => Sys2Proof.Machine.execRoundMarkerReceive key s
  | .graphFreezeComplete base => Sys2Proof.Machine.execGraphFreezeComplete base s
  | .circuitSourceSend circ => Sys2Proof.Machine.execCircuitSourceSend circ s
  | .circuitFlushTimer circ => Sys2Proof.Machine.execCircuitFlushTimer circ s
  | .circuitPacketArrive circ seq toks => Sys2Proof.Machine.execCircuitPacketArrive circ seq toks s
  | .activeMessageArrive msg => Sys2Proof.Machine.execActiveMessageArrive msg s
  | .faultRecordAlloc die => Sys2Proof.Machine.execFaultRecordAlloc die s
  | .faultTaskLaunch die rec => Sys2Proof.Machine.execFaultTaskLaunch die rec s
  | .frcmdResume die rec => Sys2Proof.Machine.execFrcmdResume die rec s
  | .frcmdAbandon die rec => Sys2Proof.Machine.execFrcmdAbandon die rec s
  | .frcmdRelease die rec => Sys2Proof.Machine.execFrcmdRelease die rec s
  | .unitctlDrain die site => Sys2Proof.Machine.execUnitctlDrain die site s
  | .unitctlFence die site => Sys2Proof.Machine.execUnitctlFence die site s
  | .unitctlUnfence die site => Sys2Proof.Machine.execUnitctlUnfence die site s
  | .jctlSave => Sys2Proof.Machine.execJctlSave s
  | .jctlRestore => Sys2Proof.Machine.execJctlRestore s
  | .unitFailureDetect die site => Sys2Proof.Machine.execUnitFailureDetect die site s
  | .mirrorPoint => Sys2Proof.Machine.execMirrorPoint s
  | .mirrorPointAck => Sys2Proof.Machine.execMirrorPointAck s
  | .buddyWrite v => Sys2Proof.Machine.execBuddyWrite v s
  | .packageLossRecovery pkg => Sys2Proof.Machine.execPackageLossRecovery pkg s
  | .ecntRead die => Sys2Proof.Machine.execEcntRead die s
  | .lnkstRead port => Sys2Proof.Machine.execLnkstRead port s
  | .hsemCas who expected new => Sys2Proof.Machine.execHsemCas who expected new s
  | .hostBarAccess acc => Sys2Proof.Machine.execHostBarAccess acc s
  | .hnoteWrite v => Sys2Proof.Machine.execHnoteWrite v s
  | .pkgidWrite v => Sys2Proof.Machine.execPkgidWrite v s
  | .bootGo => Sys2Proof.Machine.execBootGo s
  | .pwrctlRun => Sys2Proof.Machine.execPwrctlRun s
  | .pwrctlStandby => Sys2Proof.Machine.execPwrctlStandby s
  | .pwrctlOff => Sys2Proof.Machine.execPwrctlOff s
  | .powerThrottle watts => Sys2Proof.Machine.execPowerThrottle watts s
  | .cxlMemAccess acc => Sys2Proof.Machine.execCxlMemAccess acc s
  | .cxlRequestTimeout req => Sys2Proof.Machine.execCxlRequestTimeout req s
  | .hostLinkDown port => Sys2Proof.Machine.execHostLinkDown port s
  | .packetHop pkt => Sys2Proof.Machine.execPacketHop pkt s
  | .packetArrive port pkt => Sys2Proof.Machine.execPacketArrive port pkt s
  | .flitCrcReplay port => Sys2Proof.Machine.execFlitCrcReplay port s
  | .laneFailRestripe port => Sys2Proof.Machine.execLaneFailRestripe port s
  | .powerOnReset fuses => Sys2Proof.Machine.execPowerOnReset fuses s
  | .hbmTrainingDone => Sys2Proof.Machine.execHbmTrainingDone s
  | .linkTrained port lanes => Sys2Proof.Machine.execLinkTrained port lanes s
  | .loaderLoadObject obj => Sys2Proof.Machine.execLoaderLoadObject obj s
  | .molrougEmbed obj sites => Sys2Proof.Machine.execMolrougEmbed obj sites s
  | .illegalInstruction w second => Sys2Proof.Machine.execIllegalInstruction w second s
  | .memorySideCacheAccess acc => Sys2Proof.Machine.execMemorySideCacheAccess acc s
  | .cxlRequestCompletion req ok => Sys2Proof.Machine.execCxlRequestCompletion req ok s
  | .bisnpResponse die => Sys2Proof.Machine.execBisnpResponse die s
  | .hostLinkUp port => Sys2Proof.Machine.execHostLinkUp port s
  | .hsemRead => Sys2Proof.Machine.execHsemRead s
  | .circuitAcknowledgement circ seq => Sys2Proof.Machine.execCircuitAcknowledgement circ seq s
  | .graphThawComplete base => Sys2Proof.Machine.execGraphThawComplete base s

end Sys2Proof.Machine
end

