-- ==== Sys2Proof/Machine/Agenda.lean ====
section
/-! DEFINITION. Which steps of the machine's own agents may be due, which contexts are ready, and the issue of an instruction
(spec/07 R192, R220, R221, spec/08 R226, R229). -/

namespace Sys2Proof.Machine
open Sys2Proof

/-! ## Steps that may be due (DESIGN CHOICE, log 8)

Each is named by its row of the opcode table; one whose conditions do not hold changes nothing. -/

/-- Every context that is not as at reset, the one in focus first. -/
def allCtx (s : State) : List (Nat × Ctx) := (s.cur :: s.others.map (·.1)).map (fun c => (c, ctxOf s c))

/-- What may end a wait. -/
noncomputable def dueWait (cid : Nat) : Wait → List Instr
  | .port _ => [.portStallResume cid]
  | .tag _ _ => []
  | .room _ => []
  | .walk _ => []
  | .fetch _ => []
  | .tagRetry _ => [.ldfRetry cid]
  | .barrier _ _ => [.barwaitRelease cid]
  | .group _ _ => [.gwaitRelease cid]
  | .ring _ => [.rawaitRelease cid]
  | .event _ => [.wfeWake cid, .wfeTimeout cid]
  | .idle _ => [.idleExpire cid]
  | .frontier => [.frontierReached cid]
  | .chunk _ _ => [.journalChunkWaitTimeout cid]
  | .record _ => [.faultRecordAlloc (cidDie cid)]
  | .deferred _ => [.deferredFaultDelivery cid]
  | .dropped => [.frontierReached cid]

/-- The steps that concern a context. -/
noncomputable def dueCtx (s : State) (x : Nat × Ctx) : List Instr :=
  let c := x.2
  (if c.starting then [.taskStart x.1] else []) ++
    (match c.wait with
     | none => []
     | some w => dueWait x.1 w) ++
    (if c.posted.isEmpty then [] else [.postedAtomicPerformed x.1]) ++
    (if c.cfg.isEmpty then [] else [.cfgStreamApply x.1, .cfgWordApply x.1]) ++
    (c.ports.filterMap (fun p => match p.2.bind with
      | .pattern _ => some (.patternReadahead x.1 p.1)
      | _ => none)) ++
    (if cancelHits s x.1 then [.cancelKillTimeout x.1] else [])

/-- The steps of a die's Dispatcher. -/
noncomputable def dueDisp (s : State) (x : Nat × Dispatcher) : List Instr :=
  let d := x.2
  (d.queues.map (fun q => .dispatcherTakePacket q.1)) ++
    (d.resident.flatMap (fun r =>
      if r.head.isSome then [.headAging x.1 r.queue, .gangTimeout x.1 r.queue] else [.residentHeadRelease x.1 r.queue])) ++
    (d.spawn.filterMap (fun q => if q.2.isEmpty then none else some (.headAging x.1 (4096 + q.1)))) ++
    (if d.resident.any (fun r => r.head.isSome) || d.spawn.any (fun q => !q.2.isEmpty) || !d.due.isEmpty || !d.saved.isEmpty then
      [.dispatchSelect x.1] else []) ++
    (if d.queues.any (fun q => q.2.pl != 0) && decide (s.cycle / 4096 ≠ d.rebalanced / 4096) then [.pipelineRebalance x.1] else []) ++
    (if d.cancelDue then [.jcancelLinearise x.1] else []) ++
    (if d.recWait.isEmpty then [] else [.faultRecordAlloc x.1]) ++
    (d.ftask.map (fun r => .faultTaskLaunch x.1 r))

/-- The steps of a copy engine. -/
noncomputable def dueEngine (x : Nat × Engine) : List Instr :=
  (x.2.queues.flatMap (fun q => [.copyQueueTake x.1 q.1, .copyQueueStall x.1 q.1])) ++
    (x.2.copies.flatMap (fun c =>
      [.fenceCopyStart x.1 c.id, .copyTransfer x.1 c.id, .copyComplete x.1 c.id] ++
        (if c.retryAt = 0 then [] else [.ringPushRetry x.1 c.id]) ++
        (match c.rsv with
         | some (ring, slot) => [.ringRecordAck ring slot.toNat]
         | none => []) ++
        ((segsLeft c).map (fun k => .copySegmentComplete x.1 c.id k))))

/-- The steps of banks, atomic engines, walkers and instruction caches. -/
noncomputable def dueMem (s : State) : List Instr :=
  (s.nodes.flatMap (fun x =>
    (if x.2.portM.isEmpty then [] else [.bankPortRequest x.1 false, .rmwAtomic x.1 false]) ++
      (if x.2.portF.isEmpty then [] else [.bankPortRequest x.1 true, .rmwAtomic x.1 true]) ++
      (if x.2.inflight.isEmpty then [] else [.rmwAtomicComplete x.1]))) ++
    (s.clusters.flatMap (fun x =>
      (if x.2.ports.isEmpty then [] else [.atomicEnginePick x.1]) ++ (x.2.fills.map (fun l => .atomicEngineLineFill x.1 l)))) ++
    (s.walkers.filterMap (fun x => if x.2.walks.isEmpty then none else some (.walkComplete x.1))) ++
    (s.cores.flatMap (fun x => x.2.ifills.map (fun f => .icacheMissFill x.1 f.va false)))

/-- The firing of a kind of element. -/
noncomputable def dueKind (kind k : Nat) : List Instr :=
  match kind with
  | 1 => [.scnFire k]
  | 2 => [.isxFire k]
  | 3 => [.uniFire k]
  | 4 => [.rptFire k]
  | 5 => [.redFire k]
  | 6 => [.lwrFire k]
  | 7 => [.vrdFire k]
  | 8 => [.cmbFire k]
  | 9 => [.rowFire k]
  | 0xB => [.memopFire k]
  | 0xC => [.joinFire k]
  | _ => []

/-- The steps of an element context. -/
noncomputable def dueElem (s : State) (x : Nat × Elem) : List Instr :=
  let e := x.2
  dueKind (kindAt s (x.1 / 4)) x.1 ++
    (if e.reading.isSome then [.paramBlockRead x.1] else []) ++
    (if e.coming = 0 then [] else [.startTokenArrive x.1]) ++
    (if e.skip.isEmpty then [] else [.skipReceived x.1]) ++
    (if e.ended then [.periodCompletion x.1] else []) ++
    [.roundMarkerReceive x.1]

/-- The steps of the fabric, by site, graph and circuit. -/
noncomputable def dueFab (s : State) : List Instr :=
  (s.fab.elems.flatMap (dueElem s)) ++
    (((s.fab.elems.map (fun x => x.1 / 4)).eraseDups.filter (fun k => fourCtx (kindAt s k))).map (fun k => .siteArbiterPeriod k)) ++
    ((s.fab.elems.filter (fun x => kindAt s (x.1 / 4) = 0xA)).flatMap (fun x =>
      let k := x.1 / 4
      [.madderBandDecode k, .matrixOpFire k, .matrixChunkComplete k, .drainComplete k, .mxopMma k, .mxopDrain k, .mxopZero k])) ++
    (s.fab.graphs.flatMap (fun g => [.graphFreezeComplete g.1, .graphThawComplete g.1])) ++
    (s.fab.circuits.flatMap (fun c => [.circuitSourceSend c.1, .circuitFlushTimer c.1]))

/-- The domains that have an ended task or a commit. -/
def dueDoms (s : State) : List Nat :=
  (s.ended.map (fun e => e.tid.dom) ++ (s.domains.filter (fun d => d.2.commit.isSome)).map (·.1)).eraseDups

/-- A unit on which a context has stood ready, or an element able to fire, for 2^24 cycles is failing (R407). -/
noncomputable def dueFails (s : State) : List Instr :=
  let fail (key : Nat) : Instr := .unitFailureDetect (key / 2304) (key % 2304)
  ((allCtx s).filterMap (fun x => if 2 ^ 24 ≤ x.2.idleFor then some (fail (coreSite s (coreOf x.1))) else none)) ++
    (s.fab.elems.filterMap (fun e => if 2 ^ 24 ≤ e.2.idleFor then some (fail (e.1 / 4)) else none))

/-- The action of JCTL in progress (R406). -/
noncomputable def dueJob (s : State) : List Instr :=
  match s.host.job with
  | none => []
  | some save => if save then [.jctlSave] else [.jctlRestore]

/-- Every step of the machine's own agents that may be due. -/
noncomputable def due (s : State) : List Instr :=
  ((allCtx s).flatMap (dueCtx s)) ++
    ((dueDoms s).flatMap (fun d => [.tsCommit d, .tsCommitComplete d])) ++
    (s.disp.flatMap (dueDisp s)) ++
    (if s.disp.any (fun d => d.2.cancelled) && !bit (dev s 0x100700) 0 then [.jcancelComplete] else []) ++
    (s.engines.flatMap dueEngine) ++ dueMem s ++ dueFab s ++
    dueFails s ++ dueJob s ++ (if bit (dev s 0x100900) 0 then [.mirrorPoint] else []) ++
    (s.host.pkts.map (fun p => .packetHop p.id))

/-! ## Issue (R192, R220) -/

/-- A context that can issue: it has a task that has started and is not stalled; what it waits for room in has room now. -/
def isReady (s : State) (x : Nat × Ctx) : Bool :=
  x.2.task.isSome && !x.2.starting &&
    (match x.2.wait with
     | none => true
     | some (.room r) => roomNow s x.1 r
     | some (.chunk _ _) => decide (getD s.chunksUsed 0 (cidDie x.1) < 1024)
     | _ => false)

/-- The contexts of a package that can issue. -/
def readyCtx (s : State) : List (Nat × Ctx) := (allCtx s).filter (isReady s)

/-- The cores that have such a context. -/
def readyCores (s : State) : List Nat := ((readyCtx s).map (fun x => coreOf x.1)).eraseDups

/-- The context of a core that issues: one with a frontier task that has not issued in the previous 7 cycles, the one that
issued less recently first; else the next in turn. The flag says whether the turn moves. -/
def pickCtx (s : State) (core : Nat) : Option (Nat × Bool) :=
  let mine := (readyCtx s).filter (fun x => coreOf x.1 = core)
  let late := mine.filter (fun x => isFront s x.2 && decide (x.2.lastIssue + 7 < s.cycle))
  let old := late.foldl (fun b x => match b with
    | none => some x
    | some y => if x.2.lastIssue < y.2.lastIssue then some x else some y) none
  match old with
  | some x => some (x.1, false)
  | none =>
    let turn := (range' ((coreAt s core).rr + 1) 8).map (fun i => 8 * core + i % 8)
    (turn.find? (fun c => mine.any (fun x => x.1 == c))).map (fun c => (c, true))

/-- The current context with the words it has fetched. -/
def setIr (s : State) (ws : List W32) : State := { s with cx := { s.cx with ir := ws } }

/-- What the fetch at the current context's pc ends with: one word, or two after an X word, and a package that holds what the
fetch has cached and asked for; or a package in which the context has trapped, or waits. It keeps the words read before that
(R229, R400). -/
def fetchInsn (s : State) : Except State (List W32 × State) :=
  match fetchWord s s.cx.pc with
  | .fault f => .error (takeTrap (setIr s []) { f := f, pc := s.cx.pc, ir := [] })
  | .waits w s1 => .error (enterWait (setIr s1 []) w)
  | .got w0 s1 =>
    if isX w0 then
      match fetchWord s1 (s.cx.pc + 4) with
      | .fault f => .error (takeTrap (setIr s1 [w0]) { f := f, pc := s.cx.pc, ir := [w0] })
      | .waits w s2 => .error (enterWait (setIr s2 [w0]) w)
      | .got w1 s2 => .ok ([w0, w1], setIr s2 [w0, w1])
    else .ok ([w0], setIr s1 [w0])

/-- The instruction that words are, or ILLEGAL_INSTRUCTION (R234). -/
noncomputable def insnOf (ws : List W32) : Instr :=
  let w0 := ws.headD 0
  let w1 := (ws.drop 1).headD 0
  match decodePair w0 w1 with
  | .ok i => i
  | .error _ => .illegalInstruction w0 w1

/-- The fill of the current frame of a task that goes on (R243): the package after it, or one in which the context has trapped,
or waits. -/
def refillCur (s : State) : State :=
  match fillFrame 0 s with
  | .ok _ s1 => { s1 with cx := { s1.cx with refill := .none, walked := [] } }
  | .error (.trap f kept) _ =>
    let s1 := kept.getD s
    takeTrap { s1 with cx := { s1.cx with refill := .trapped } } { f := f, pc := s.cx.pc, ir := [] }
  | .error (.wait w kept) _ => enterWait (kept.getD s) w
  | .error (.gone s1) _ => s1

/-- The current context issues: a trap that is due comes first, then a fill; else its next instruction. The issue takes its
turn as `turn` says, but where the word is not there. -/
noncomputable def issueCur (turn : State → State) (s : State) : Host.Outcome State Fault Refusal :=
  match s.cx.trapNext with
  | p :: r => .next (takeTrap (turn { s with cx := { s.cx with trapNext := r } }) p)
  | [] =>
    if s.cx.refill = .due then .next (refillCur (turn s))
    else
      match fetchInsn s with
      | .error s1 => .next s1
      | .ok (ws, s1) => exec (insnOf ws) (turn s1)

/-- Whether a wait is for room. -/
def isRoom : Option Wait → Bool
  | some (.room _) => true
  | _ => false

/-- A core's turn once one of its contexts, in focus, issues: its wait for room is over, and round-robin moves where `moves` says. -/
def takeTurn (core cid : Nat) (moves : Bool) (s : State) : State :=
  let s1 := if moves then updCore s core (fun c => { c with rr := cid % 8 }) else s
  { s1 with cx := { s1.cx with lastIssue := s.cycle, idleFor := 0, wait := if isRoom s1.cx.wait then none else s1.cx.wait } }

/-- A core issues from one of its contexts. -/
noncomputable def issueCore (s : State) (core : Nat) : Host.Outcome State Fault Refusal :=
  match pickCtx s core with
  | none => .next s
  | some (cid, moves) => issueCur (takeTurn core cid moves) (focus s cid)

/-! ## Time (R220, R221, R226) -/

/-- Tokens in the input buffers of an element context. -/
def tokensIn (e : Elem) : Nat := (e.ins.map (fun i => i.2.length)).foldl (· + ·) 0

/-- Of n cycles, those that lie in the first 256 of the current period of a site's arbiter (R221). -/
def countedCycles (s : State) (site n : Nat) : Nat :=
  let stop := getD s.fab.period 0 site + 256
  min (s.cycle + n) stop - min s.cycle stop

/-- The occupancies that the arbiters of sites with several contexts sum, after n cycles. -/
def passOcc (s : State) (n : Nat) : State :=
  if s.fab.elems.isEmpty then s
  else
    let es := s.fab.elems.map (fun x =>
      (x.1, if fourCtx (kindAt s (x.1 / 4)) then { x.2 with occ := x.2.occ + countedCycles s (x.1 / 4) n * tokensIn x.2 } else x.2))
    { s with fab := { s.fab with elems := es } }

/-- The array of every cell whose chunk is in progress reads a k-group a cycle, for n cycles (R45, R383). -/
def passCells (s : State) (n : Nat) : State :=
  s.fab.cells.foldl (fun s x =>
    match x.2.busy with
    | none => s
    | some b => if cellReady s x.1 then runSteps s x.1 (x.2.k + n * (matOp s x.1 b).cfg.g) else s) s

/-- Cycles that a context is ready and an element can fire, while nothing comes of it (R407). -/
def passIdle (s : State) (n : Nat) : State :=
  let ctx (c : Nat) (x : Ctx) : Ctx := { x with idleFor := if isReady s (c, x) then x.idleFor + n else 0 }
  let can (k : Nat) : Bool := (tryFire s k).any (fun s1 => hasFired s s1 k)
  { s with cx := ctx s.cur s.cx, others := s.others.map (fun c => (c.1, ctx c.1 c.2))
           fab := { s.fab with elems := s.fab.elems.map (fun e => (e.1, { e.2 with idleFor := if can e.1 then e.2.idleFor + n else 0 })) } }

/-- n cycles pass: the arrays of the cells, the occupancies of the sites, what stands idle, and the counter. -/
def passTime (s : State) (n : Nat) : State :=
  let s1 := passIdle (passOcc (passCells s n) n) n
  { s1 with cycle := s1.cycle + n }

/-! ## What moves next (DESIGN CHOICE, log 8) -/

/-- A free choice among n: the only one where there is but one. -/
def pickIdx (n k : Nat) : Nat := if n ≤ 1 then 0 else Config.choose k % n

/-- One step that is due, or the issue of one core. -/
noncomputable def act (s : State) : Host.Outcome State Fault Refusal :=
  let es := due s
  let cs := readyCores s
  let i := pickIdx (es.length + cs.length) s.draws
  let s1 := { s with draws := s.draws + 1 }
  match es[i]? with
  | some e => exec e s1
  | none =>
    match cs[i - es.length]? with
    | some core => issueCore s1 core
    | none => .next s1

/-- A step takes one cycle, and a free number beyond it (DESIGN CHOICE, log 10). -/
def tick (s : State) : State := passTime { s with draws := s.draws + 1 } (1 + Config.elapsed s.draws)

/-! ## A word where the next fetch finds it (DESIGN CHOICE, log 28) -/

/-- The address of that word. -/
def fetchPc : W64 := 0x20000#64

/-- The task that runs it: a boot task, in S mode (R428). -/
def bootTask (cid : Nat) : Task :=
  { tid := { dom := 63, ts := 0, seq := 0 }, prio := 63, csc := 4, hidx := 0, packet := 1, entry := fetchPc, x := 0, y := 0, lin := 0
    parent := none, home := cid, super := true, issued := 0, dropFirst := 0, exposed := false }

/-- HBM with a root table whose first entry leads to a leaf of 4 TiB that allows everything in S mode, and the words. -/
def fetchMem (s : State) (w : Nat) : State :=
  let s1 := wrBytes s (locHbm 0) (bytesOfNat 8 0x10001)
  let s2 := wrBytes s1 (locHbm 0x10000) (bytesOfNat 8 0xF)
  wrBytes s2 (locHbm 0x20000) (bytesOfNat 8 w)

/-- The state with a boot task on the current context whose next instruction these words are, as BOOT.GO leaves it but for
the task's registers: power on, nothing held of older tables and tasks, and the page and the line of the words in the core's TLB and
instruction
cache, as fetches before them leave them. -/
def placeWord (s : State) (w : Nat) : State :=
  let s1 := setDev (fetchMem s w) 0x100000 0
  let core := coreOf s1.cur
  let ln : CLine := { line := locHbm fetchPc.toNat / 64, data := BitVec.ofNat 512 w, bad := false }
  let s2 := updCore s1 core (fun c => { c with
    tlb := [{ page := 0, bits := 42, leaf := 0xF }], icache := [ln], ifills := [], stopped := false })
  let s3 := updCluster s2 (clusterOf core) (fun c => { c with tlb := [], misses := [] })
  let s4 := updWalker s3 (cidDie s3.cur) (fun _ => Walker.reset)
  let t := bootTask s4.cur
  let l : Live := { task := t, st := .running s4.cur, readFrom := [], dropped := false }
  { s4 with
    cx := { s4.cx with
      task := some t, starting := false, wait := none, got := none, walked := [], refill := .none, trapNext := [], mode := true, pc := fetchPc }
    live := s4.live.filter (fun x => x.task.tid ≠ t.tid) ++ [l]
    host := { s4.host with off := false, standby := false } }

end Sys2Proof.Machine
end

