-- ==== Sys2Proof/Machine/Step.lean ====
section
/-! DEFINITION. One step of the package: a step of one of its agents, or one instruction of one core; and the placing of a
word for the next fetch. -/

namespace Sys2Proof.Machine
open Sys2Proof

/-- One step. A package in STANDBY does not move until an outside event wakes it (R429). -/
noncomputable def step (s : State) : Host.Outcome State Fault Refusal :=
  if s.host.off then .fault .powerOff
  else if s.host.standby then .next s
  else
    match act s with
    | .next s1 => .next (tick s1)
    | .fault f => .fault f
    | .refused r => .refused r

/-- The state with an instruction of nbits bits placed where the next step fetches (DESIGN CHOICE, log 28). -/
def State.withFetchWord (s : State) (nbits w : Nat) : State := placeWord s (w % 2 ^ nbits)

end Sys2Proof.Machine
end

