-- ==== Sys2Proof/Safety.lean ====
section
/-! DEFINITION. What a safe run is, and the conditions and tables in whose terms the statements speak. The results in the tables
are the rules' own, written again. -/

namespace Sys2Proof.Machine
open Sys2Proof

/-! ## Conditions on a state -/

/-- The power is on, so that instructions and agents run. -/
abbrev Powered (s : State) : Prop := s.host.off = false

/-- The current context can run an instruction: power is on and it holds a task. -/
abbrev Running (s : State) : Prop := Powered s ∧ s.cx.task.isSome = true

/-- A step that is not stopped. -/
def Moves (s : State) : Prop := ∃ t, step s = .next t

/-- An action succeeds, with a result and the state it leaves. -/
def Does {α : Type} (x : Act α) (s : State) (a : α) (t : State) : Prop := x s = .ok a t

/-- A field that names a g register of the current frame, and no port (R225, R242). -/
abbrev IsReg (s : State) (x : BitVec 6) : Prop := isQ x = false ∧ outOfFrame s.cx x = false

/-- A field that names a vector register (R225). -/
abbrev IsVec (x : BitVec 6) : Prop := isV x = true ∧ isQ x = false

/-- An R word's prefix is none, or an X word with nothing but NEG (R232). -/
abbrev Plain (o : OpR) : Prop := okNeg o.x = true

/-- A scalar R word that executes (R231). -/
abbrev On (s : State) (o : OpR) : Prop := on0 s o.p o.x.neg = true

/-- The pc after an instruction of a length. -/
def after (s : State) (len : Nat) : W64 := s.cx.pc + BitVec.ofNat 64 len

/-- The length of an R word, with its X word if it has one. -/
def lenR (o : OpR) : Nat := if o.x.has then 8 else 4

/-- The state after an instruction that changed registers of the current context alone: the pc is that of the next
instruction, what ports kept for a re-execution is dropped, and nothing else has changed. -/
def done (s : State) (c : Ctx) (len : Nat) : State := retire { s with cx := c } (after s len)

/-- The state where the current instruction traps before it has had any effect (R240, R400). -/
def trapped (s : State) (f : FaultInfo) : State := takeTrap (undoPorts s s) { f := f, pc := s.cx.pc, ir := s.cx.ir }

/-- A timestamp task that is not the frontier task finds 16 ended tasks on its core (R204). -/
abbrev Crowded (s : State) : Prop := isSpec s s.cx = true ∧ 16 ≤ endedOn s (coreOf s.cur)

/-- Every request that publishing the current context's stores makes of host memory is made; a timestamp task publishes at its commit
(R414). -/
abbrev Publishes (s : State) : Prop := isTs s s.cx = true ∨ ∀ l ∈ s.cx.journal ++ s.cx.sb, lineFails s l = false

/-- The state where TRAP or BRK has entered the handler (R339, R400). -/
def softEntry (s : State) (cause : Nat) (epc : W64) : State :=
  let s1 := undoPorts s s
  { s1 with cx := { s1.cx with
      cause := BitVec.ofNat 64 cause, epc := pcOf epc, fault := 0xFFFFFFFF#32, pmode := s.cx.mode, mode := true
      pc := pcOf (BitVec.ofNat 64 (bits (dev s 0x100800) 56 2 * 4)), wait := none, got := none, walked := [], point := none } }

/-- A step's outcome, after which time passes (log 10). -/
def ticked (x : Host.Outcome State Fault Refusal) : Host.Outcome State Fault Refusal :=
  match x with
  | .next t => .next (tick t)
  | .fault f => .fault f
  | .refused r => .refused r

/-- A context in focus as its core issues from it (R220). -/
def issuing (s : State) (core cid : Nat) (moves : Bool) : State := takeTurn core cid moves (focus s cid)

/-- A context that is no timestamp task, or is the frontier task of its domain (R186). -/
abbrev Free (s : State) : Prop := isSpec s s.cx = false

/-- Two states of a context with the same registers. -/
abbrev SameRegs (c d : Ctx) : Prop :=
  d.pc = c.pc ∧ d.g = c.g ∧ d.phys = c.phys ∧ d.v = c.v ∧ d.p = c.p ∧ d.k = c.k ∧ d.lc = c.lc ∧ d.fb = c.fb ∧ d.bsp = c.bsp ∧
    d.bsl = c.bsl ∧ d.size = c.size ∧ d.rlo = c.rlo ∧ d.mode = c.mode ∧ d.pmode = c.pmode ∧ d.cause = c.cause ∧ d.epc = c.epc ∧
    d.fault = c.fault

/-- A context with a port changed. -/
def portSet (c : Ctx) (n : Nat) (p : Port) : Ctx := { c with ports := setD c.ports Port.free n p }

/-- The value of a register, as an instruction reads it. -/
def reg (s : State) (x : BitVec 6) : W64 := gReg s.cx x.toNat

/-- The state with a register of the current context written. -/
def wrote (s : State) (x : BitVec 6) (v : W64) : State := { s with cx := setG s.cx x.toNat v }

/-- The current context with a register written; g0 discards what is written (R224). -/
def regSet (s : State) (x : BitVec 6) (v : W64) : Ctx := setG s.cx x.toNat v

/-! ## Integer results (R257-R261) -/

/-- A signed quotient towards zero, and its remainder (R257, R258). -/
def quot (a b : Int) : Int := if b = 0 then -1 else Int.sign a * Int.sign b * (a.natAbs / b.natAbs : Nat)
def rest (a b : Int) : Int := if b = 0 then a else a - b * quot a b

/-- d := f(a, b). -/
def intTwo : List ((OpR → Instr) × (W64 → W64 → W64)) :=
  [(.add, fun a b => BitVec.ofNat 64 (a.toNat + b.toNat)),
   (.sub, fun a b => BitVec.ofInt 64 (a.toInt - b.toInt)),
   (.mul, fun a b => BitVec.ofNat 64 (a.toNat * b.toNat)),
   (.mulhi, fun a b => BitVec.ofInt 64 (a.toInt * b.toInt / 2 ^ 64)),
   (.mulhiu, fun a b => BitVec.ofNat 64 (a.toNat * b.toNat / 2 ^ 64)),
   (.div, fun a b => BitVec.ofInt 64 (quot a.toInt b.toInt)),
   (.divu, fun a b => if b = 0 then BitVec.allOnes 64 else BitVec.ofNat 64 (a.toNat / b.toNat)),
   (.rem, fun a b => BitVec.ofInt 64 (rest a.toInt b.toInt)),
   (.remu, fun a b => if b = 0 then a else BitVec.ofNat 64 (a.toNat % b.toNat)),
   (.and, fun a b => a &&& b), (.or, fun a b => a ||| b), (.xor, fun a b => a ^^^ b),
   (.shl, fun a b => a <<< (b.toNat % 64)), (.shr, fun a b => a >>> (b.toNat % 64)),
   (.sra, fun a b => BitVec.ofInt 64 (a.toInt / 2 ^ (b.toNat % 64))),
   (.slt, fun a b => if a.toInt < b.toInt then 1 else 0), (.sltu, fun a b => if a.toNat < b.toNat then 1 else 0),
   (.min, fun a b => if a.toInt ≤ b.toInt then a else b), (.max, fun a b => if b.toInt ≤ a.toInt then a else b),
   (.minu, fun a b => if a.toNat ≤ b.toNat then a else b), (.maxu, fun a b => if b.toNat ≤ a.toNat then a else b),
   (.lea0, fun a b => BitVec.ofNat 64 (a.toNat + b.toNat)), (.lea1, fun a b => BitVec.ofNat 64 (a.toNat + 2 * b.toNat)),
   (.lea2, fun a b => BitVec.ofNat 64 (a.toNat + 4 * b.toNat)), (.lea3, fun a b => BitVec.ofNat 64 (a.toNat + 8 * b.toNat))]

/-- d := f(a), with field b as a number where the instruction has one. -/
def intOne : List ((OpR → Instr) × (W64 → Nat → W64)) :=
  [(.shli, fun a n => BitVec.ofNat 64 (a.toNat * 2 ^ n)), (.shri, fun a n => BitVec.ofNat 64 (a.toNat / 2 ^ n)),
   (.srai, fun a n => BitVec.ofInt 64 (a.toInt / 2 ^ n)),
   (.clz, fun a _ => BitVec.ofNat 64 (if a = 0 then 64 else 63 - Nat.log2 a.toNat)),
   (.ctz, fun a _ => BitVec.ofNat 64 (((range' 0 64).find? (fun i => a.getLsbD i)).getD 64)),
   (.popc, fun a _ => BitVec.ofNat 64 ((range' 0 64).filter (fun i => a.getLsbD i)).length),
   (.sxtB, fun a _ => BitVec.ofInt 64 (BitVec.ofNat 8 a.toNat).toInt), (.sxtH, fun a _ => BitVec.ofInt 64 (BitVec.ofNat 16 a.toNat).toInt),
   (.sxtW, fun a _ => BitVec.ofInt 64 (BitVec.ofNat 32 a.toNat).toInt), (.zxtB, fun a _ => BitVec.ofNat 64 (a.toNat % 2 ^ 8)),
   (.zxtH, fun a _ => BitVec.ofNat 64 (a.toNat % 2 ^ 16)), (.zxtW, fun a _ => BitVec.ofNat 64 (a.toNat % 2 ^ 32))]

/-- d := f(a, immediate). -/
def intImm : List ((OpI → Instr) × (W64 → W64 → W64)) :=
  [(.addi, fun a i => a + i), (.andi, fun a i => a &&& i), (.ori, fun a i => a ||| i), (.xori, fun a i => a ^^^ i),
   (.slti, fun a i => if a.toInt < i.toInt then 1 else 0)]

/-! ## Branches and predicates (R263, R266) -/

/-- The compare branches' conditions. -/
def branches : List ((OpB → Instr) × (W64 → W64 → Bool)) :=
  [(.beq, fun a b => decide (a.toNat = b.toNat)), (.bne, fun a b => decide (a.toNat ≠ b.toNat)),
   (.blt, fun a b => decide (a.toInt < b.toInt)), (.bge, fun a b => decide (b.toInt ≤ a.toInt)),
   (.bltu, fun a b => decide (a.toNat < b.toNat)), (.bgeu, fun a b => decide (b.toNat ≤ a.toNat))]

/-- The lane-wise predicate instructions. -/
def predOps : List ((OpR → Instr) × (Bool → Bool → Bool)) :=
  [(.pand, fun a b => a && b), (.por, fun a b => a || b), (.pxor, fun a b => a != b), (.pnot, fun a _ => !a)]

/-! ## Predication (R231, R299) -/

/-- The R and V words that execute where bit 0 of their predicate holds, but for the atomics; SEL and VSEL always execute. -/
noncomputable def scalarForms : List (OpR → Instr) :=
  [.add, .sub, .mul, .mulhi, .mulhiu, .div, .divu, .rem, .remu, .and, .or, .xor, .shl, .shr, .sra, .shli, .shri, .srai,
   .slt, .sltu, .min, .max, .minu, .maxu, .lea0, .lea1, .lea2, .lea3, .clz, .ctz, .popc, .sxtB, .sxtH, .sxtW, .zxtB,
   .zxtH, .zxtW, .jmpr, .callr, .ret, .enter, .leave, .pcnt, .ldf, .ldfC, .ste, .fesetF, .fesetE, .feqry, .pref, .stbm,
   .ldbm, .fence, .fenceq, .synci, .prefS, .stbmS, .ldbmS, .vextr, .vins, .kldE4m3, .kldBf16, .qbind, .qbindc, .qfree] ++
  [.qstat, .qpeek, .qskip, .qemit, .qseek, .tspawn, .tspawng, .tend, .tabort, .futres, .futreg, .gjoin, .gleave, .garr,
   .gwait, .barinit, .bararr, .barexp, .barwait, .rawait, .rrel, .rpoll, .cpy, .cpyq, .cpyf, .msend, .mxop, .cfgw, .cfgs,
   .gstart, .gfrz, .gthaw, .jcancel, .gfrzRound, .trap, .eret, .mfs, .mts, .wfe, .sev, .brk, .nop, .tlbinvAll, .tlbinvVa,
   .tlbinvRng, .cinv, .cwb, .idle]
/-- The words that act lane by lane. -/
def laneForms : List (OpR → Instr) :=
  [.pand, .por, .pxor, .pnot, .vld, .vst, .vldst, .vgath, .vscat, .vldS, .vstS, .vldstS, .vgathS, .vscatS, .vaddF32,
   .vsubF32, .vmulF32, .vfmaF32, .vfmsF32, .vminF32, .vmaxF32, .vabsF32, .vnegF32, .vcmpEqF32, .vcmpNeF32, .vcmpLtF32,
   .vcmpLeF32, .vredAddF32, .vredMaxF32, .vredMinF32, .vscanAddF32, .vrcp, .vrsq, .vsqrt, .vexp2, .vlog2, .vtanh,
   .vscaleF32, .vscaleI32, .vaddI32, .vsubI32, .vmulI32, .vminI32, .vmaxI32, .vminU32, .vmaxU32, .vabsI32, .vnegI32] ++
  [.vand, .vor, .vxor, .vnot, .vshl, .vshr, .vsra, .vcmpEqI32, .vcmpNeI32, .vcmpLtI32, .vcmpLeI32, .vcmpLtuI32,
   .vcmpLeuI32, .vredAddI32, .vredMaxI32, .vredMinI32, .vscanAddI32, .vmov, .vbcast, .vperm, .vshuf, .vcomp, .vexpd,
   .vcvt, .vlut, .vqdec, .vdot4I8, .vdot4E4m3, .futjoin]

/-! ## Memory -/

/-- A scalar load or store that executes (R231). -/
abbrev OnM (s : State) (o : OpM) : Prop := on0 s o.p o.neg = true

/-- The length of an M word, with its X word if it has one. -/
def lenM (o : OpM) : Nat := if o.has then 8 else 4

/-- A free task's access to n bytes that nothing else is about to change: the context has posted no atomic, no atomic engine holds
a line and no host port this one, no bank has a request or a waiter, and no byte is poisoned. -/
abbrev Quiet (s : State) (loc n : Nat) : Prop :=
  isTs s s.cx = false ∧ s.cx.posted = [] ∧ (∀ c ∈ s.clusters, c.2.lines = []) ∧ s.nodes = [] ∧ poisoned s loc n = false ∧
    look s.host.held (loc / 64) = none

/-- The n bytes from a location as the current context sees them: its own stores, else memory (R62). -/
def seen (s : State) (loc n : Nat) : List Byte := (range' loc n).map (fun l => (ownByte s.cx l).getD (rdByte s l))

/-- A context whose task has acted in a way that R407 lists. -/
def exposedCtx (c : Ctx) : Ctx := { c with task := c.task.map (fun t => { t with exposed := true }) }

/-- The read-ahead of the input patterns that a FENCEQ names is dropped; a mask of 0 names all (R283). -/
def rereadPorts (s : State) (mask : BitVec 17) : State :=
  { s with cx := { s.cx with ports := s.cx.ports.map (fun p =>
      (p.1, match p.2.bind with
        | .pattern d => if (mask == 0 || mask.getLsbD p.1) && db d 192 192 == 0 then { p.2 with ahead := [] } else p.2
        | _ => p.2)) } }

/-- Scalar loads and stores: the space, the size in bytes. -/
def loads : List ((OpM → Instr) × Bool × Nat) :=
  [(.ldB, false, 1), (.ldH, false, 2), (.ldW, false, 4), (.ldD, false, 8), (.ldsB, true, 1), (.ldsH, true, 2), (.ldsW, true, 4),
   (.ldsD, true, 8)]
def stores : List ((OpM → Instr) × Bool × Nat) :=
  [(.stB, false, 1), (.stH, false, 2), (.stW, false, 4), (.stD, false, 8), (.stsB, true, 1), (.stsH, true, 2), (.stsW, true, 4),
   (.stsD, true, 8)]

/-- Atomics: the operation, the size in bytes, whether in S-space. -/
def atomics : List ((OpR → Instr) × AtomOp × Nat × Bool) :=
  [(.amoAddW, .add, 4, false), (.amoMinW, .min, 4, false), (.amoMaxW, .max, 4, false), (.amoMinuW, .minu, 4, false),
   (.amoMaxuW, .maxu, 4, false), (.amoAndW, .and, 4, false), (.amoOrW, .or, 4, false), (.amoXorW, .xor, 4, false),
   (.amoSwapW, .swap, 4, false), (.amoFaddF32, .faddF32, 4, false), (.amoFaddBf16, .faddBf16, 2, false),
   (.casW, .cas, 4, false), (.amaxrstW, .amaxrst, 4, false), (.amoAddD, .add, 8, false), (.amoMinD, .min, 8, false),
   (.amoMaxD, .max, 8, false), (.amoMinuD, .minu, 8, false), (.amoMaxuD, .maxu, 8, false), (.amoAndD, .and, 8, false),
   (.amoOrD, .or, 8, false), (.amoXorD, .xor, 8, false), (.amoSwapD, .swap, 8, false), (.casD, .cas, 8, false),
   (.amaxrstD, .amaxrst, 8, false), (.amoAddWS, .add, 4, true), (.amoMinWS, .min, 4, true), (.amoMaxWS, .max, 4, true),
   (.amoMinuWS, .minu, 4, true), (.amoMaxuWS, .maxu, 4, true), (.amoAndWS, .and, 4, true), (.amoOrWS, .or, 4, true),
   (.amoXorWS, .xor, 4, true), (.amoSwapWS, .swap, 4, true), (.amoFaddF32S, .faddF32, 4, true),
   (.amoFaddBf16S, .faddBf16, 2, true), (.casWS, .cas, 4, true), (.amaxrstWS, .amaxrst, 4, true), (.amoAddDS, .add, 8, true),
   (.amoMinDS, .min, 8, true), (.amoMaxDS, .max, 8, true), (.amoMinuDS, .minu, 8, true), (.amoMaxuDS, .maxu, 8, true),
   (.amoAndDS, .and, 8, true), (.amoOrDS, .or, 8, true), (.amoXorDS, .xor, 8, true), (.amoSwapDS, .swap, 8, true),
   (.casDS, .cas, 8, true), (.amaxrstDS, .amaxrst, 8, true)]

/-! ## Lanes (R299-R317) -/

/-- The value of a vector register. -/
def vec (s : State) (x : BitVec 6) : Vec := getD s.cx.v 0 x.toNat

/-- The current context with a vector register written. -/
def vecSet (s : State) (x : BitVec 6) (v : Vec) : Ctx := { s.cx with v := setD s.cx.v 0 x.toNat v }

/-- The prefix of a form that takes a rounding mode, and of one that does not (R232, R299). -/
abbrev OkRm (x : XW) : Prop := okRm x = true
abbrev OkNeg (x : XW) : Prop := okNeg x = true
/-- That of VSCALE: RM, and XIMM as the form fixes it. -/
abbrev OkScale (x : XW) : Prop := x.scp = 0 ∧ x.ord = 0 ∧ x.rm.toNat ≤ 4 ∧ x.ximm.toNat < 2

/-- Lane forms: the instruction, whether d is a source too, whether b is a source, the prefix it accepts, and what a lane gives from
the prefix, the policy, a[i], b[i] and d[i]. -/
structure LaneOp where
  ctor : OpR → Instr
  acc : Bool
  two : Bool
  ok : XW → Prop
  f : XW → Nat → W32 → W32 → W32 → W32

/-- A form of FP32 lanes. -/
def fpLane (ctor : OpR → Instr) (acc : Bool) (f : Rm → Nat → Nat → Nat → Nat → Nat) : LaneOp :=
  { ctor := ctor, acc := acc, two := true, ok := OkRm
    f := fun x pol a b d => BitVec.ofNat 32 (f (rmOf x.rm.toNat) pol a.toNat b.toNat d.toNat) }
/-- A form of integer lanes. -/
def intLane (ctor : OpR → Instr) (f : W32 → W32 → W32) : LaneOp :=
  { ctor := ctor, acc := false, two := true, ok := OkNeg, f := fun _ _ a b _ => f a b }
def intLane1 (ctor : OpR → Instr) (f : W32 → W32) : LaneOp :=
  { ctor := ctor, acc := false, two := false, ok := OkNeg, f := fun _ _ a _ _ => f a }
/-- A form with one FP32 operand: rounded once from an exact value, or with a value of its own. -/
def roundLane (ctor : OpR → Instr) (f : Fv → Fv) : LaneOp :=
  { ctor := ctor, acc := false, two := false, ok := OkRm
    f := fun x pol a _ _ => BitVec.ofNat 32 (convert (f (flush fp32 pol a.toNat)) fp32 (rmOf x.rm.toNat) pol) }
def specialLane (ctor : OpR → Instr) (f : W32 → Fv → Nat → Nat) : LaneOp :=
  { ctor := ctor, acc := false, two := false, ok := OkNeg
    f := fun _ pol a _ _ =>
      BitVec.ofNat 32 (f (if (flush fp32 pol a.toNat).isZero then a &&& 0x80000000 else a) (flush fp32 pol a.toNat) pol) }

def floatLanes : List LaneOp :=
  [fpLane .vaddF32 false (fun rm pol a b _ => fpAdd rm pol a b), fpLane .vsubF32 false (fun rm pol a b _ => fpSub rm pol a b),
   fpLane .vmulF32 false (fun rm pol a b _ => fpMul rm pol a b),
   fpLane .vfmaF32 true (fun rm pol a b d => fpFma rm pol false d a b),
   fpLane .vfmsF32 true (fun rm pol a b d => fpFma rm pol true d a b),
   { fpLane .vminF32 false (fun _ pol a b _ => fpMinMax false pol a b) with ok := OkNeg },
   { fpLane .vmaxF32 false (fun _ pol a b _ => fpMinMax true pol a b) with ok := OkNeg },
   intLane1 .vabsF32 (fun a => BitVec.ofNat 32 (a.toNat % 2 ^ 31)), intLane1 .vnegF32 (fun a => BitVec.ofNat 32 (a.toNat + 2 ^ 31)),
   roundLane .vrcp fvRcp, roundLane .vrsq fvRsq, roundLane .vsqrt fvSqrt,
   specialLane .vexp2 fpExp2, specialLane .vlog2 fpLog2, specialLane .vtanh fpTanh,
   { ctor := .vscaleF32, acc := true, two := true, ok := fun x => OkScale x ∧ x.ximm = 0
     f := fun x pol a b d => BitVec.ofNat 32 (convert
       (orNan [flush fp32 pol a.toNat, flush fp32 pol d.toNat, flush fp32 pol b.toNat]
         (fvMul (fvSum (rmOf x.rm.toNat) [flush fp32 pol a.toNat, (flush fp32 pol d.toNat).negate]) (flush fp32 pol b.toNat)))
       fp32 (rmOf x.rm.toNat) pol) },
   { ctor := .vscaleI32, acc := true, two := true, ok := OkScale
     f := fun x pol a b d => BitVec.ofNat 32 (convert
       (orNan [flush fp32 pol b.toNat] (fvMul (.ofInt (a.toInt - d.toInt)) (flush fp32 pol b.toNat))) fp32 (rmOf x.rm.toNat) pol) },
   { ctor := .vdot4E4m3, acc := true, two := true, ok := OkRm
     f := fun x pol a b d => BitVec.ofNat 32 (convert
       (orNan (flush fp32 pol d.toNat :: ((range' 0 4).map (fun j => flush e4m3 pol (laneByte a j)) ++
           (range' 0 4).map (fun j => flush e4m3 pol (laneByte b j))))
         (fvSum (rmOf x.rm.toNat) (flush fp32 pol d.toNat :: (range' 0 4).map (fun j =>
           fvMul (flush e4m3 pol (laneByte a j)) (flush e4m3 pol (laneByte b j))))))
       fp32 (rmOf x.rm.toNat) pol) }]

def intLanes : List LaneOp :=
  [intLane .vaddI32 (fun a b => BitVec.ofNat 32 (a.toNat + b.toNat)), intLane .vsubI32 (fun a b => BitVec.ofInt 32 (a.toInt - b.toInt)),
   intLane .vmulI32 (fun a b => BitVec.ofNat 32 (a.toNat * b.toNat)),
   intLane .vminI32 (fun a b => if a.toInt ≤ b.toInt then a else b), intLane .vmaxI32 (fun a b => if b.toInt ≤ a.toInt then a else b),
   intLane .vminU32 (fun a b => if a.toNat ≤ b.toNat then a else b), intLane .vmaxU32 (fun a b => if b.toNat ≤ a.toNat then a else b),
   intLane1 .vabsI32 (fun a => BitVec.ofNat 32 a.toInt.natAbs), intLane1 .vnegI32 (fun a => BitVec.ofInt 32 (-a.toInt)),
   intLane .vand (fun a b => a &&& b), intLane .vor (fun a b => a ||| b), intLane .vxor (fun a b => a ^^^ b),
   intLane1 .vnot (fun a => BitVec.ofNat 32 (2 ^ 32 - 1 - a.toNat)),
   intLane .vshl (fun a b => BitVec.ofNat 32 (a.toNat * 2 ^ (b.toNat % 32))),
   intLane .vshr (fun a b => BitVec.ofNat 32 (a.toNat / 2 ^ (b.toNat % 32))),
   intLane .vsra (fun a b => BitVec.ofInt 32 (a.toInt / 2 ^ (b.toNat % 32))), intLane1 .vmov (fun a => a),
   { ctor := .vdot4I8, acc := true, two := true, ok := OkNeg
     f := fun _ _ a b d => BitVec.ofInt 32 (d.toInt + sgn 8 (laneByte a 0) * sgn 8 (laneByte b 0) +
       sgn 8 (laneByte a 1) * sgn 8 (laneByte b 1) + sgn 8 (laneByte a 2) * sgn 8 (laneByte b 2) +
       sgn 8 (laneByte a 3) * sgn 8 (laneByte b 3)) }]

/-- The lane compares: the instruction, and what a lane gives from the policy, a[i] and b[i]. -/
def laneTests : List ((OpR → Instr) × (Nat → W32 → W32 → Bool)) :=
  let real (nan : Bool) (t : Int → Bool) : Nat → W32 → W32 → Bool := fun pol a b =>
    if (flush fp32 pol a.toNat).isNan ∨ (flush fp32 pol b.toNat).isNan then nan
    else t (fvCmp (flush fp32 pol a.toNat) (flush fp32 pol b.toNat))
  [(.vcmpEqF32, real false (fun c => decide (c = 0))), (.vcmpNeF32, real true (fun c => decide (c ≠ 0))),
   (.vcmpLtF32, real false (fun c => decide (c < 0))), (.vcmpLeF32, real false (fun c => decide (c ≤ 0))),
   (.vcmpEqI32, fun _ a b => decide (a.toNat = b.toNat)), (.vcmpNeI32, fun _ a b => decide (a.toNat ≠ b.toNat)),
   (.vcmpLtI32, fun _ a b => decide (a.toInt < b.toInt)), (.vcmpLeI32, fun _ a b => decide (a.toInt ≤ b.toInt)),
   (.vcmpLtuI32, fun _ a b => decide (a.toNat < b.toNat)), (.vcmpLeuI32, fun _ a b => decide (a.toNat ≤ b.toNat))]

/-- The F32 reductions: the prefix they accept, and a node of their tree, over operands that are leaves or nodes. -/
def floatReductions : List ((OpR → Instr) × (XW → Prop) × (XW → Nat → W32 → W32 → W32)) :=
  [(.vredAddF32, OkRm, fun x pol a b => BitVec.ofNat 32 (fpAdd (rmOf x.rm.toNat) (pol / 2 * 2) a.toNat b.toNat)),
   (.vredMaxF32, OkNeg, fun _ pol a b => BitVec.ofNat 32 (fpMinMax true (pol / 2 * 2) a.toNat b.toNat)),
   (.vredMinF32, OkNeg, fun _ pol a b => BitVec.ofNat 32 (fpMinMax false (pol / 2 * 2) a.toNat b.toNat))]

/-- The lane of VSHUF's 32 that lane i takes (Table 10-3). -/
def shuffled (pat rot i : Nat) : Nat :=
  if pat = 0 then (if i % 2 = 0 then i / 2 else 16 + (i - 1) / 2)
  else if pat = 1 then (if i % 2 = 0 then 8 + i / 2 else 24 + (i - 1) / 2)
  else if pat = 2 then 2 * i else if pat = 3 then 2 * i + 1 else if pat = 4 then i + rot else 15 - i

/-! ## Commands (R332-R338, R408) -/

/-- The current task re-runs nothing: what it issues takes effect (R408). -/
def Counts (s : State) : Prop := ∀ t, s.cx.task = some t → t.dropFirst ≤ t.issued

/-- One more action of the current task is counted (R408). -/
def issuedOne (s : State) : State :=
  { s with cx := { s.cx with task := s.cx.task.map (fun t => { t with issued := t.issued + 1 }) } }

/-- One more action is held until the current task commits (R209). -/
def heldOne (s : State) (h : Held) : State := { s with cx := { s.cx with held := s.cx.held ++ [h] } }

/-- Commands to the fabric and the cancel: the instruction, the operands it takes, what a timestamp task holds, and how it is
performed. -/
structure Command where
  ctor : OpR → Instr
  ok : State → W64 → W64 → Prop
  held : State → W64 → W64 → Held
  run : State → W64 → W64 → CmdRes

/-- A placement base (R336): below 2^32, its low 18 bits zero. -/
abbrev IsBase (a : W64) : Prop := a.toNat < 2 ^ 32 ∧ a.toNat % 2 ^ 18 = 0

noncomputable def commands : List Command :=
  [{ ctor := .cfgw, ok := fun _ a b => IsBase a ∧ b.toNat < 2 ^ 32, held := fun s a b => .cfgw a b s.cx.mode
     run := fun s a b => .ok (cfgAdd s s.cur (.word b) a s.cx.pc s.cx.ir (s.cx.task.map identOf) s.cx.mode) },
   { ctor := .cfgs, ok := fun _ _ b => IsBase b, held := fun s a b => .cfgs a b s.cx.mode
     run := fun s a b => .ok (cfgAdd s s.cur (.stream a none 0) b s.cx.pc s.cx.ir (s.cx.task.map identOf) s.cx.mode) },
   { ctor := .gstart, ok := fun _ a _ => IsBase a, held := fun _ a _ => .gstart a, run := fun s a _ => cmdGstart s.cur a s },
   { ctor := .gfrz, ok := fun _ a _ => IsBase a, held := fun s a b => .gfrz a b false s.cx.mode
     run := fun s a b => cmdGfrz s.cur a b false s.cx.mode (s.cx.task.map identOf) s },
   { ctor := .gfrzRound, ok := fun _ a _ => IsBase a, held := fun s a b => .gfrz a b true s.cx.mode
     run := fun s a b => cmdGfrz s.cur a b true s.cx.mode (s.cx.task.map identOf) s },
   { ctor := .gthaw, ok := fun _ a _ => IsBase a, held := fun s a b => .gthaw a b s.cx.mode
     run := fun s a b => cmdGthaw s.cur a b s.cx.mode (s.cx.task.map identOf) s },
   { ctor := .jcancel, ok := fun _ _ _ => True, held := fun _ _ b => .jcancel b, run := fun s _ b => .ok (cancelJob s b) }]

/-! ## Element contexts (R352-R371) -/

/-- A context of a kind is the one of its site that fires next, and has nothing left to send (R221, R354). -/
abbrev Fires (s : State) (kind k : Nat) : Prop :=
  kindAt s (k / 4) = kind ∧ arbiter s (k / 4) = some k ∧ elemReady s k = true ∧ (elemAt s k).outq = []

/-- The state after a firing that leaves s: its graph has started, its quota is one less, it runs (R221, R350). -/
def fired (s : State) (k : Nat) : State :=
  let t := updElem (startGraph s (k / 4)) k (fun e => { e with quota := e.quota - 1, idleFor := 0 })
  { t with fab := { t.fab with running := setD t.fab.running 0 (k / 4) (k % 4) } }

/-- A token is the head of an input and may come there next (R98). -/
abbrev IsHead (s : State) (k i depth : Nat) (t : Token) : Prop :=
  headAt s k i = some t ∧ streamOk depth (look (elemAt s k).last i) t.tag = true

/-- Room at every destination of outputs (R354). -/
abbrev Room (s : State) (k : Nat) (outs : List Nat) : Prop := ∀ o ∈ outs, hasRoom s (outDests s k o) = true

/-- The state after tokens have been put out and sent as far as there is room (R354). -/
def emitted (s : State) (k : Nat) (ts : List (Nat × Token)) : State :=
  flushOut k 16 (updElem s k (fun e => { e with outq := e.outq ++ ts }))

/-- The state with the run state of a context set. -/
def ranTo (s : State) (k : Nat) (r : Run) : State := updElem s k (fun e => { e with run := r })

/-! ## Memory's form (R4, log 3) -/

/-- Memory is in its canonical form, and so is that of the mirror points that a package may start again from. -/
abbrev MemInv (s : State) : Prop :=
  memWf s = true ∧ ∀ m, s.host.mirror = some m ∨ s.host.pointSnap = some m → canonical m.mem 0 = true

/-! ## Device registers (R6) -/

/-- A device register with the bits of a mask written, and the others as they were (R6). -/
def regMasked (s : State) (off mask : Nat) (v : W64) : State :=
  setDev s off (BitVec.ofNat 64 (msk (dev s off) (2 ^ 64 - 1 - mask) + msk v.toNat mask))

end Sys2Proof.Machine
end

