-- ==== Sys2Proof/WellFormed.lean ====
section
/-! DEFINITION. Which terms of Instr are an instruction that words can hold: the fields a format does not use hold 0
(R230), and the X fields hold 0 where no X word stands (R232). -/

namespace Sys2Proof

/-- Without an X word every X field is 0 (R232). -/
def XW.wf (x : XW) : Bool := x.has || (x == XW.none)

/-- As XW.wf, for an I word. -/
def OpI.wf (o : OpI) : Bool := o.has || (o.immh == 0)

/-- As XW.wf, for an M word. -/
def OpM.wf (o : OpM) : Bool := o.has || (!o.neg && o.offh == 0)

/-- The record holds 0 in the fields that the instruction does not use or that select it. -/
def OpR.wfUnused (o : OpR) (d a b p : Bool) : Bool :=
  o.x.wf && (d || o.d == 0) && (a || o.a == 0) && (b || o.b == 0) && (p || o.p == 0)

/-- A well-formed instruction: one that encode gives words for and decode reads back. Event rows have no words. -/
def Instr.wf : Instr → Bool
  | .add o => o.wfUnused true true true true
  | .sub o => o.wfUnused true true true true
  | .mul o => o.wfUnused true true true true
  | .mulhi o => o.wfUnused true true true true
  | .mulhiu o => o.wfUnused true true true true
  | .div o => o.wfUnused true true true true
  | .divu o => o.wfUnused true true true true
  | .rem o => o.wfUnused true true true true
  | .remu o => o.wfUnused true true true true
  | .and o => o.wfUnused true true true true
  | .or o => o.wfUnused true true true true
  | .xor o => o.wfUnused true true true true
  | .shl o => o.wfUnused true true true true
  | .shr o => o.wfUnused true true true true
  | .sra o => o.wfUnused true true true true
  | .shli o => o.wfUnused true true true true
  | .shri o => o.wfUnused true true true true
  | .srai o => o.wfUnused true true true true
  | .slt o => o.wfUnused true true true true
  | .sltu o => o.wfUnused true true true true
  | .min o => o.wfUnused true true true true
  | .max o => o.wfUnused true true true true
  | .minu o => o.wfUnused true true true true
  | .maxu o => o.wfUnused true true true true
  | .sel o => o.wfUnused true true true true
  | .lea0 o => o.wfUnused true true true true
  | .lea1 o => o.wfUnused true true true true
  | .lea2 o => o.wfUnused true true true true
  | .lea3 o => o.wfUnused true true true true
  | .clz o => o.wfUnused true true false true
  | .ctz o => o.wfUnused true true false true
  | .popc o => o.wfUnused true true false true
  | .sxtB o => o.wfUnused true true false true
  | .sxtH o => o.wfUnused true true false true
  | .sxtW o => o.wfUnused true true false true
  | .zxtB o => o.wfUnused true true false true
  | .zxtH o => o.wfUnused true true false true
  | .zxtW o => o.wfUnused true true false true
  | .addi o => o.wf
  | .andi o => o.wf
  | .ori o => o.wf
  | .xori o => o.wf
  | .slti o => o.wf
  | .bfx _ => true
  | .bfxS _ => true
  | .bfi _ => true
  | .lih _ => true
  | .addpc _ => true
  | .beq _ => true
  | .bne _ => true
  | .blt _ => true
  | .bge _ => true
  | .bltu _ => true
  | .bgeu _ => true
  | .bqe _ => true
  | .bpa _ => true
  | .bpn _ => true
  | .loop _ => true
  | .jmp _ => true
  | .call _ => true
  | .jmpr o => o.wfUnused false true false true
  | .callr o => o.wfUnused false true false true
  | .ret o => o.wfUnused false false false true
  | .enter o => o.wfUnused false false true true && decide (1 ≤ o.b.toNat) && decide (o.b.toNat ≤ 5)
  | .leave o => o.wfUnused false false false true
  | .pand o => o.wfUnused true true true true
  | .por o => o.wfUnused true true true true
  | .pxor o => o.wfUnused true true true true
  | .pnot o => o.wfUnused true true false true
  | .pcnt o => o.wfUnused true true false true
  | .pseti _ => true
  | .ldf o => o.wfUnused true true false true
  | .ldfC o => o.wfUnused true true false true
  | .ste o => o.wfUnused false true true true
  | .fesetF o => o.wfUnused false true false true
  | .fesetE o => o.wfUnused false true false true
  | .feqry o => o.wfUnused true true false true
  | .pref o => o.wfUnused false true false true
  | .vld o => o.wfUnused true true false true
  | .vst o => o.wfUnused false true true true
  | .vldst o => o.wfUnused true true true true
  | .vgath o => o.wfUnused true true true true
  | .vscat o => o.wfUnused true true true true
  | .stbm o => o.wfUnused true true true true
  | .ldbm o => o.wfUnused true true true true
  | .fence o => o.wfUnused false false false true
  | .fenceq o => o.wfUnused false false false true
  | .synci o => o.wfUnused false true true true
  | .prefS o => o.wfUnused false true false true
  | .vldS o => o.wfUnused true true false true
  | .vstS o => o.wfUnused false true true true
  | .vldstS o => o.wfUnused true true true true
  | .vgathS o => o.wfUnused true true true true
  | .vscatS o => o.wfUnused true true true true
  | .stbmS o => o.wfUnused true true true true
  | .ldbmS o => o.wfUnused true true true true
  | .amoAddW o => o.wfUnused true true true true
  | .amoMinW o => o.wfUnused true true true true
  | .amoMaxW o => o.wfUnused true true true true
  | .amoMinuW o => o.wfUnused true true true true
  | .amoMaxuW o => o.wfUnused true true true true
  | .amoAndW o => o.wfUnused true true true true
  | .amoOrW o => o.wfUnused true true true true
  | .amoXorW o => o.wfUnused true true true true
  | .amoSwapW o => o.wfUnused true true true true
  | .amoFaddF32 o => o.wfUnused true true true true
  | .amoFaddBf16 o => o.wfUnused true true true true
  | .casW o => o.wfUnused true true true true
  | .amaxrstW o => o.wfUnused true true true true
  | .amoAddWS o => o.wfUnused true true true true
  | .amoMinWS o => o.wfUnused true true true true
  | .amoMaxWS o => o.wfUnused true true true true
  | .amoMinuWS o => o.wfUnused true true true true
  | .amoMaxuWS o => o.wfUnused true true true true
  | .amoAndWS o => o.wfUnused true true true true
  | .amoOrWS o => o.wfUnused true true true true
  | .amoXorWS o => o.wfUnused true true true true
  | .amoSwapWS o => o.wfUnused true true true true
  | .amoFaddF32S o => o.wfUnused true true true true
  | .amoFaddBf16S o => o.wfUnused true true true true
  | .casWS o => o.wfUnused true true true true
  | .amaxrstWS o => o.wfUnused true true true true
  | .amoAddD o => o.wfUnused true true true true
  | .amoMinD o => o.wfUnused true true true true
  | .amoMaxD o => o.wfUnused true true true true
  | .amoMinuD o => o.wfUnused true true true true
  | .amoMaxuD o => o.wfUnused true true true true
  | .amoAndD o => o.wfUnused true true true true
  | .amoOrD o => o.wfUnused true true true true
  | .amoXorD o => o.wfUnused true true true true
  | .amoSwapD o => o.wfUnused true true true true
  | .casD o => o.wfUnused true true true true
  | .amaxrstD o => o.wfUnused true true true true
  | .amoAddDS o => o.wfUnused true true true true
  | .amoMinDS o => o.wfUnused true true true true
  | .amoMaxDS o => o.wfUnused true true true true
  | .amoMinuDS o => o.wfUnused true true true true
  | .amoMaxuDS o => o.wfUnused true true true true
  | .amoAndDS o => o.wfUnused true true true true
  | .amoOrDS o => o.wfUnused true true true true
  | .amoXorDS o => o.wfUnused true true true true
  | .amoSwapDS o => o.wfUnused true true true true
  | .casDS o => o.wfUnused true true true true
  | .amaxrstDS o => o.wfUnused true true true true
  | .ldB o => o.wf
  | .ldH o => o.wf
  | .ldW o => o.wf
  | .ldD o => o.wf
  | .stB o => o.wf
  | .stH o => o.wf
  | .stW o => o.wf
  | .stD o => o.wf
  | .ldsB o => o.wf
  | .ldsH o => o.wf
  | .ldsW o => o.wf
  | .ldsD o => o.wf
  | .stsB o => o.wf
  | .stsH o => o.wf
  | .stsW o => o.wf
  | .stsD o => o.wf
  | .vaddF32 o => o.wfUnused true true true true
  | .vsubF32 o => o.wfUnused true true true true
  | .vmulF32 o => o.wfUnused true true true true
  | .vfmaF32 o => o.wfUnused true true true true
  | .vfmsF32 o => o.wfUnused true true true true
  | .vminF32 o => o.wfUnused true true true true
  | .vmaxF32 o => o.wfUnused true true true true
  | .vabsF32 o => o.wfUnused true true false true
  | .vnegF32 o => o.wfUnused true true false true
  | .vcmpEqF32 o => o.wfUnused true true true true
  | .vcmpNeF32 o => o.wfUnused true true true true
  | .vcmpLtF32 o => o.wfUnused true true true true
  | .vcmpLeF32 o => o.wfUnused true true true true
  | .vredAddF32 o => o.wfUnused true true false true
  | .vredMaxF32 o => o.wfUnused true true false true
  | .vredMinF32 o => o.wfUnused true true false true
  | .vscanAddF32 o => o.wfUnused true true false true
  | .vrcp o => o.wfUnused true true false true
  | .vrsq o => o.wfUnused true true false true
  | .vsqrt o => o.wfUnused true true false true
  | .vexp2 o => o.wfUnused true true false true
  | .vlog2 o => o.wfUnused true true false true
  | .vtanh o => o.wfUnused true true false true
  | .vscaleF32 o => o.wfUnused true true true true && !o.x.ximm.getLsbD 0
  | .vscaleI32 o => o.wfUnused true true true true && o.x.ximm.getLsbD 0
  | .vaddI32 o => o.wfUnused true true true true
  | .vsubI32 o => o.wfUnused true true true true
  | .vmulI32 o => o.wfUnused true true true true
  | .vminI32 o => o.wfUnused true true true true
  | .vmaxI32 o => o.wfUnused true true true true
  | .vminU32 o => o.wfUnused true true true true
  | .vmaxU32 o => o.wfUnused true true true true
  | .vabsI32 o => o.wfUnused true true false true
  | .vnegI32 o => o.wfUnused true true false true
  | .vand o => o.wfUnused true true true true
  | .vor o => o.wfUnused true true true true
  | .vxor o => o.wfUnused true true true true
  | .vnot o => o.wfUnused true true false true
  | .vshl o => o.wfUnused true true true true
  | .vshr o => o.wfUnused true true true true
  | .vsra o => o.wfUnused true true true true
  | .vcmpEqI32 o => o.wfUnused true true true true
  | .vcmpNeI32 o => o.wfUnused true true true true
  | .vcmpLtI32 o => o.wfUnused true true true true
  | .vcmpLeI32 o => o.wfUnused true true true true
  | .vcmpLtuI32 o => o.wfUnused true true true true
  | .vcmpLeuI32 o => o.wfUnused true true true true
  | .vredAddI32 o => o.wfUnused true true false true
  | .vredMaxI32 o => o.wfUnused true true false true
  | .vredMinI32 o => o.wfUnused true true false true
  | .vscanAddI32 o => o.wfUnused true true false true
  | .vsel o => o.wfUnused true true true true
  | .vmov o => o.wfUnused true true false true
  | .vbcast o => o.wfUnused true true false true
  | .vextr o => o.wfUnused true true true true
  | .vins o => o.wfUnused true true true true
  | .vperm o => o.wfUnused true true true true
  | .vshuf o => o.wfUnused true true true true
  | .vcomp o => o.wfUnused true true false true
  | .vexpd o => o.wfUnused true true false true
  | .vcvt o => o.wfUnused true true false true
  | .vlut o => o.wfUnused true true true true
  | .kldE4m3 o => o.wfUnused true true false true && !o.x.ximm.getLsbD 0
  | .kldBf16 o => o.wfUnused true true false true && o.x.ximm.getLsbD 0
  | .vqdec o => o.wfUnused true true true true
  | .vdot4I8 o => o.wfUnused true true true true
  | .vdot4E4m3 o => o.wfUnused true true true true
  | .qbind o => o.wfUnused true true false true
  | .qbindc o => o.wfUnused true true false true
  | .qfree o => o.wfUnused true false false true
  | .qstat o => o.wfUnused true true false true
  | .qpeek o => o.wfUnused true true false true
  | .qskip o => o.wfUnused false true true true
  | .qemit o => o.wfUnused true false true true
  | .qseek o => o.wfUnused false true true true
  | .tspawn o => o.wfUnused false true true true
  | .tspawng o => o.wfUnused false true true true
  | .tend o => o.wfUnused false false false true
  | .tabort o => o.wfUnused false false false true
  | .futres o => o.wfUnused false true true true
  | .futreg o => o.wfUnused false true true true
  | .futjoin o => o.wfUnused false true true true
  | .gjoin o => o.wfUnused false true false true
  | .gleave o => o.wfUnused false true false true
  | .garr o => o.wfUnused true true false true
  | .gwait o => o.wfUnused false true true true
  | .barinit o => o.wfUnused false true true true
  | .bararr o => o.wfUnused true true false true
  | .barexp o => o.wfUnused true true true true
  | .barwait o => o.wfUnused false true true true
  | .rawait o => o.wfUnused true true false true
  | .rrel o => o.wfUnused false true false true
  | .rpoll o => o.wfUnused true true false true
  | .cpy o => o.wfUnused false true false true
  | .cpyq o => o.wfUnused true true true true
  | .cpyf o => o.wfUnused false true true true
  | .msend o => o.wfUnused false true true true
  | .mxop o => o.wfUnused false true true true
  | .cfgw o => o.wfUnused false true true true
  | .cfgs o => o.wfUnused false true true true
  | .gstart o => o.wfUnused false true false true
  | .gfrz o => o.wfUnused false true true true
  | .gthaw o => o.wfUnused false true true true
  | .jcancel o => o.wfUnused false false true true
  | .gfrzRound o => o.wfUnused false true true true
  | .trap o => o.wfUnused false false true true
  | .eret o => o.wfUnused false false false true
  | .mfs o => o.wfUnused true true false true
  | .mts o => o.wfUnused true false true true
  | .wfe o => o.wfUnused false false true true
  | .sev o => o.wfUnused false false false true
  | .brk o => o.wfUnused false false true true
  | .nop o => o.wfUnused false false false true
  | .tlbinvAll o => o.wfUnused false false false true
  | .tlbinvVa o => o.wfUnused false true false true
  | .tlbinvRng o => o.wfUnused false true true true
  | .cinv o => o.wfUnused false true true true
  | .cwb o => o.wfUnused false true true true
  | .idle o => o.wfUnused false false true true
  | .postedAtomicPerformed _ => false
  | .patternReadahead _ _ => false
  | .portStallResume _ => false
  | .ldfRetry _ => false
  | .barwaitRelease _ => false
  | .rawaitRelease _ => false
  | .gwaitRelease _ => false
  | .wfeWake _ => false
  | .wfeTimeout _ => false
  | .idleExpire _ => false
  | .frontierReached _ => false
  | .deferredFaultDelivery _ => false
  | .journalChunkWaitTimeout _ => false
  | .tsCommit _ => false
  | .tsCommitComplete _ => false
  | .taskStart _ => false
  | .dispatcherTakePacket _ => false
  | .dispatchSelect _ => false
  | .headAging _ _ => false
  | .residentHeadRelease _ _ => false
  | .gangTimeout _ _ => false
  | .pipelineRebalance _ => false
  | .siteArbiterPeriod _ => false
  | .jcancelLinearise _ => false
  | .cancelKillTimeout _ => false
  | .jcancelComplete => false
  | .walkComplete _ => false
  | .icacheMissFill _ _ _ => false
  | .bankPortRequest _ _ => false
  | .rmwAtomic _ _ => false
  | .rmwAtomicComplete _ => false
  | .bankScrub _ _ => false
  | .atomicEnginePick _ => false
  | .atomicEngineLineFill _ _ => false
  | .atomicEngineRecall _ => false
  | .hostSnoop _ => false
  | .peerAccessServe _ => false
  | .copyQueueTake _ _ => false
  | .copyQueueStall _ _ => false
  | .fenceCopyStart _ _ => false
  | .copyTransfer _ _ => false
  | .copySegmentComplete _ _ _ => false
  | .copyComplete _ _ => false
  | .ringPushRetry _ _ => false
  | .ringRecordAck _ _ => false
  | .barrierUpdate _ => false
  | .controlTokenArrive _ => false
  | .cqtabWrite _ => false
  | .tqtabWrite _ => false
  | .ptrootWrite _ => false
  | .domcfgWrite _ _ => false
  | .registerWrite _ _ => false
  | .cfgStreamApply _ => false
  | .cfgWordApply _ => false
  | .paramBlockRead _ => false
  | .startTokenArrive _ => false
  | .skipReceived _ => false
  | .scnFire _ => false
  | .isxFire _ => false
  | .uniFire _ => false
  | .rptFire _ => false
  | .redFire _ => false
  | .vrdFire _ => false
  | .cmbFire _ => false
  | .lwrFire _ => false
  | .rowFire _ => false
  | .memopFire _ => false
  | .joinFire _ => false
  | .periodCompletion _ => false
  | .madderBandDecode _ => false
  | .matrixOpFire _ => false
  | .matrixChunkComplete _ => false
  | .drainComplete _ => false
  | .mxopMma _ => false
  | .mxopDrain _ => false
  | .mxopZero _ => false
  | .roundMarkerReceive _ => false
  | .graphFreezeComplete _ => false
  | .circuitSourceSend _ => false
  | .circuitFlushTimer _ => false
  | .circuitPacketArrive _ _ _ => false
  | .activeMessageArrive _ => false
  | .faultRecordAlloc _ => false
  | .faultTaskLaunch _ _ => false
  | .frcmdResume _ _ => false
  | .frcmdAbandon _ _ => false
  | .frcmdRelease _ _ => false
  | .unitctlDrain _ _ => false
  | .unitctlFence _ _ => false
  | .unitctlUnfence _ _ => false
  | .jctlSave => false
  | .jctlRestore => false
  | .unitFailureDetect _ _ => false
  | .mirrorPoint => false
  | .mirrorPointAck => false
  | .buddyWrite _ => false
  | .packageLossRecovery _ => false
  | .ecntRead _ => false
  | .lnkstRead _ => false
  | .hsemCas _ _ _ => false
  | .hostBarAccess _ => false
  | .hnoteWrite _ => false
  | .pkgidWrite _ => false
  | .bootGo => false
  | .pwrctlRun => false
  | .pwrctlStandby => false
  | .pwrctlOff => false
  | .powerThrottle _ => false
  | .cxlMemAccess _ => false
  | .cxlRequestTimeout _ => false
  | .hostLinkDown _ => false
  | .packetHop _ => false
  | .packetArrive _ _ => false
  | .flitCrcReplay _ => false
  | .laneFailRestripe _ => false
  | .powerOnReset _ => false
  | .hbmTrainingDone => false
  | .linkTrained _ _ => false
  | .loaderLoadObject _ => false
  | .molrougEmbed _ _ => false
  | .illegalInstruction _ _ => false
  | .memorySideCacheAccess _ => false
  | .cxlRequestCompletion _ _ => false
  | .bisnpResponse _ => false
  | .hostLinkUp _ => false
  | .hsemRead => false
  | .circuitAcknowledgement _ _ => false
  | .graphThawComplete _ => false

end Sys2Proof
end

