-- ==== Sys2Proof/Certificates/Slice0/Obligations.lean ====
section
/-! DEFINITION. The statements for the provers, from the rules of spec/. -/

open Sys2Proof Sys2Proof.Machine

/-! ## The encoding and the step -/

/-- R229, R236, Tables 8-5 to 8-8: words written out bit by bit, major first, decode to the instructions they stand for. -/
def Obligations.TableWordsDecode : Prop :=
  decodeTableWord 32 0b000000_000101_001010_010011_011_00001 = some (.add { d := 5, a := 10, b := 19, p := 3, x := XW.none }) ∧
  decodeTableWord 32 0b000000_000101_001010_000111_011_11110 = some (.zxtH { d := 5, a := 10, b := 0, p := 3, x := XW.none }) ∧
  decodeTableWord 32 0b000001_000101_001010_10101010111100 = some (.addi { d := 5, a := 10, imm := 0x2ABC, has := false, immh := 0 }) ∧
  decodeTableWord 32 0b000110_000101_001010_01_001001_010001 = some (.bfxS { d := 5, a := 10, len := 9, pos := 17 }) ∧
  decodeTableWord 32 0b000111_000101_10000000000000000001 = some (.lih { d := 5, imm := 0x80001 }) ∧
  decodeTableWord 32 0b001101_000101_001010_11111111111110 = some (.bltu { a := 5, b := 10, off := 0x3FFE }) ∧
  decodeTableWord 32 0b001111_000010_000011_11111111111110 = some (.loop { a := 2, off := 0x3FFE }) ∧
  decodeTableWord 32 0b010001_11111111111111111111111111 = some (.call { off := 0x3FFFFFF }) ∧
  decodeTableWord 32 0b010010_000000_000000_000101_000_00011 = some (.enter { d := 0, a := 0, b := 5, p := 0, x := XW.none }) ∧
  decodeTableWord 32 0b010100_000111_0000_1010010111000011 = some (.pseti { d := 7, mask := 0xA5C3 }) ∧
  decodeTableWord 32 0b010101_000101_001010_000000_011_00001 = some (.ldfC { d := 5, a := 10, b := 0, p := 3, x := XW.none }) ∧
  decodeTableWord 32 0b010111_000101_001010_010011_011_11011 = some (.casDS { d := 5, a := 10, b := 19, p := 3, x := XW.none }) ∧
  decodeTableWord 32 0b011110_000101_001010_10101010111_011 =
    some (.stW { t := 5, a := 10, off := 0x557, p := 3, has := false, neg := false, offh := 0 }) ∧
  decodeTableWord 32 0b101000_000101_001010_010011_011_00011 = some (.vfmaF32 { d := 5, a := 10, b := 19, p := 3, x := XW.none }) ∧
  decodeTableWord 32 0b101011_110101_001010_000000_000_00000 = some (.qbind { d := 53, a := 10, b := 0, p := 0, x := XW.none }) ∧
  decodeTableWord 32 0b101100_000101_001010_000000_000_01100 = some (.bararr { d := 5, a := 10, b := 0, p := 0, x := XW.none }) ∧
  decodeTableWord 32 0b101101_000101_001010_010011_000_00001 = some (.cpyq { d := 5, a := 10, b := 19, p := 0, x := XW.none }) ∧
  decodeTableWord 32 0xB890C002 = some (.mfs { d := 9, a := 3, b := 0, p := 0, x := XW.none }) ∧
  decodeTableWord 32 0xB8000007 = some (.nop { d := 0, a := 0, b := 0, p := 0, x := XW.none }) ∧
  decodeTableWord 32 0 = none

/-- R229-R236: every well-formed instruction, with every operand at every value its encoding admits, is read back from its own
bytes. -/
def Obligations.DecodeOfEncode : Prop :=
 ∀ i : Instr, i.wf = true → decode (encodeBytes i) = .ok (i, [])

/-- R229-R236: bytes that are accepted are the encoding of a well-formed instruction, so that no two encodings share one. -/
def Obligations.EncodeOfDecode : Prop :=
  ∀ (bs : List Byte) (i : Instr) (rest : List Byte), decode bs = .ok (i, rest) → i.wf = true ∧ encodeBytes i ++ rest = bs

/-- R192, R220, R229, R234, R235, R240: what one step does. With power on and not in standby it takes one of the steps that are
due, or issues on one ready core, as the free choice of log 8 falls, and then time passes (log 10). Where a core issues from a
context that no trap and no fill awaits, and the words it fetches decode to a well-formed instruction, that instruction is what runs. A
word with an unassigned major, and any word that the decoder refuses, traps with ILLEGAL and no other effect. -/
def Obligations.StepRunsDecoded : Prop :=
  ((∀ (s : State) (e : Instr), Powered s → s.host.standby = false →
     (due s)[pickIdx ((due s).length + (readyCores s).length) s.draws]? = some e →
     step s = ticked (exec e { s with draws := s.draws + 1 })) ∧
   (∀ (s : State) (core cid : Nat) (moves : Bool) (ws : List W32) (t : State) (i : Instr), Powered s → s.host.standby = false →
     (due s).length ≤ pickIdx ((due s).length + (readyCores s).length) s.draws →
     (readyCores s)[pickIdx ((due s).length + (readyCores s).length) s.draws - (due s).length]? = some core →
     pickCtx { s with draws := s.draws + 1 } core = some (cid, moves) →
     (ctxOf s cid).trapNext = [] → (ctxOf s cid).refill ≠ .due →
     fetchInsn (focus { s with draws := s.draws + 1 } cid) = .ok (ws, t) →
     decode (ws.flatMap bytesOfWord) = .ok (i, []) →
     i.wf = true ∧ step s = ticked (exec i (takeTurn core cid moves t)))) ∧
  ((∀ (ext : Option (BitVec 26)) (w : W32), 0x2F ≤ (w.extractLsb' 26 6).toNat → (w.extractLsb' 26 6).toNat ≤ 0x3E →
     decodeWord ext w = .error .noMajor) ∧
   (∀ (w second : W32) (s : State), Running s →
     exec (.illegalInstruction w second) s =
       .next (takeTrap { s with cx := { s.cx with ir := if isX w then [w, second] else [w] } }
         { f := faultAt cILLEGAL 0, pc := s.cx.pc, ir := if isX w then [w, second] else [w] })) ∧
   (∀ (s t : State) (ws : List W32) (e : Reject), Running s → s.cx.trapNext = [] → s.cx.refill ≠ .due → fetchInsn s = .ok (ws, t) →
     decode (ws.flatMap bytesOfWord) = .error e →
     issueCur id s = .next (takeTrap { t with cx := { t.cx with ir := ws } } { f := faultAt cILLEGAL 0, pc := t.cx.pc, ir := ws })))

/-- R191, R429: with power on and a task on the current context, every instruction and every step of another agent has a next
state: none is refused. A package with power on always moves; one with power off never does. -/
def Obligations.EveryInstructionMoves : Prop :=
  (∀ (i : Instr) (s : State), Running s → ∃ t, exec i s = .next t) ∧
  ((∀ s, Powered s → Moves s) ∧ (∀ s, ¬ Powered s → step s = .fault .powerOff))

/-- The Reset columns of the spec's register tables, Tables 8-3 and 8-4 among them, and R46, R226: what reset leaves, as far as the spec
states it. DOMCFG, PWRCTL and BUDDY have a field that is not 0; every other device register that has a reset value is 0, as are
status and qstat of each context and core; every word's tag and every buffer's is empty; no task runs. It names no value that the spec
does not give; those are log 7. -/
def Obligations.ResetValues : Prop :=
  (∀ n, n < 64 → regView State.reset (0x100400 + 8 * n) = 0x3F00) ∧
  regView State.reset 0x100A20 = 240 * 16 ∧ regView State.reset 0x100900 = 20 * 2 ^ 14 ∧
  (∀ o, regAssigned o = true → o % 8 = 0 → o < 0x200000 → ¬ (0x100400 ≤ o ∧ o < 0x100600) →
    o ∉ [0x100830, 0x100840, 0x100900, 0x100A08, 0x100A20] → regView State.reset o = 0) ∧
  (∀ c, sysView (focus State.reset c) 7 = some 0 ∧ sysView (focus State.reset c) 8 = some 0) ∧
  (∀ c, (ctxOf State.reset c).task = none) ∧ State.reset.cycle = 0 ∧ State.reset.live = [] ∧
  (∀ a, a < 2 ^ 32 → siteKind State.reset (a / 2 ^ 30 % 4) (a / 2 ^ 18 % 4096) = 0xB → tagFull State.reset (tagKey State.reset a) = false) ∧
  ∀ k, tagFull State.reset k = false

/-- R156, R4: bytes written are read back from where they were written, and every other byte reads as before. Memory starts in its
canonical form, the model's own (log 3), and what writes memory keeps it. -/
def Obligations.MemoryReadsBack : Prop :=
  (∀ (s : State) (loc a : Nat) (n v : Nat),
     rdNat (wrBytes s loc (bytesOfNat n v)) loc n = v % 256 ^ n ∧
     ((a < loc ∨ loc + n ≤ a) → rdByte (wrBytes s loc (bytesOfNat n v)) a = rdByte s a)) ∧
  (memWf State.reset = true ∧
   ∀ s, memWf s = true →
     (∀ loc bs, memWf (homeWrite s loc bs) = true) ∧
     (∀ op loc n v e, memWf (rmwAt s op loc n v e).2 = true) ∧
     (∀ c op loc n v e, memWf (aeAt s c op loc n v e).2 = true) ∧
     (∀ core l, memWf (publishLine s core l) = true) ∧
     (∀ c, memWf (publishCtx s c) = true) ∧
     (∀ c, memWf (drainAll s c) = true))

/-! ## Traps and system registers -/

/-- R339, R397, R400: a fault of an instruction in a task that is free, or the frontier task of its domain, with TVEC.EN = 1 and a
free record: the record is written; cause, epc and fault are set; PMODE takes MODE and MODE becomes 1; the pc is TVEC.ENTRY;
every other register, the window and the accumulating state of the context keep their values. TRAP n and BRK n enter the
handler with cause 0x100 + n and 0x140 + n; epc is the address after TRAP, and that of BRK itself; no record is written, and
fault names none. -/
def Obligations.TrapEntry : Prop :=
  (∀ (s s1 : State) (t : Task) (x : Pend) (a n : Nat), s.cx.task = some t → Free s → x.f.cause < 0x100 → x.f.cause ≠ cECC →
     bit (dev s 0x100800) 0 = true → writeRec s (cidDie s.cur) (ctxRec s s.cur t x) = some (a, n, s1) →
     takeTrap s x = { s1 with cx := { s1.cx with
       cause := BitVec.ofNat 64 x.f.cause, epc := pcOf (x.pc + BitVec.ofNat 64 x.f.skip), fault := BitVec.ofNat 32 a
       pmode := s1.cx.mode, mode := true, pc := pcOf (BitVec.ofNat 64 (bits (dev s 0x100800) 56 2 * 4))
       wait := none, got := none, walked := [], point := none } } ∧
     s1.cx = { s.cx with posted := s1.cx.posted }) ∧
  (∀ (o : OpR) (s : State), Running s → Plain o → On s o → Free s → bit (dev s 0x100800) 0 = true →
     exec (.trap o) s = .next (softEntry s (0x100 + o.b.toNat) (after s (lenR o))) ∧
     exec (.brk o) s = .next (softEntry s (0x140 + o.b.toNat) s.cx.pc))

/-- R226, R339, R342, R401: ERET in S mode. BUSY of the record that fault names is cleared, fault names none, MODE takes PMODE,
and control goes to epc. In U mode ERET, every form of TLBINV, MFS of cause, epc and fault, and MTS to the registers that S
mode writes trap with PRIV and have no other effect. That the refill which a fault of a fetch has left is due again, and that MTS to the
read-only registers 9 and 11 raises PRIV in U mode, are the model's readings (log 29); so is what becomes of an epc that is not canonical
(log 47). -/
def Obligations.EretAndPrivilege : Prop :=
  (∀ (o : OpR) (s : State), Running s → Plain o → On s o → Free s → s.cx.mode = true → s.cx.epc.toNat % 4 = 0 →
     exec (.eret o) s = .next (retire
       (let s1 := if s.cx.fault = 0xFFFFFFFF#32 then s else clearBusy s s.cx.fault.toNat
        { s1 with cx := { s1.cx with
            fault := 0xFFFFFFFF#32, mode := s1.cx.pmode, refill := if s1.cx.refill = .trapped then .due else s1.cx.refill } }) s.cx.epc)) ∧
  (∀ (o : OpR) (s : State), Running s → Plain o → On s o → s.cx.mode = false →
     exec (.eret o) s = .next (trapped s (faultAt cPRIV 0)) ∧
     exec (.tlbinvAll o) s = .next (trapped s (faultAt cPRIV 0)) ∧
     exec (.tlbinvVa o) s = .next (trapped s (faultAt cPRIV 0)) ∧
     exec (.tlbinvRng o) s = .next (trapped s (faultAt cPRIV 0)) ∧
     (9 ≤ o.a.toNat → o.a.toNat ≤ 11 → IsReg s o.d → exec (.mfs o) s = .next (trapped s (faultAt cPRIV 0))) ∧
     (o.d.toNat ∈ [4, 5, 6, 7, 9, 10, 11] → exec (.mts o) s = .next (trapped s (faultAt cPRIV 0))))

/-- R183, R226, R227, R340: MFS writes the system register to d, and only that; MFS of front acquires the commits that it shows, so
that the core's L1 is dropped. MTS writes b to the system register in the mode that
may: fb, bsp, bsl and epc whole, of status POL and PMODE, of a loop counter its 32 bits; nothing else changes. -/
def Obligations.SystemRegisters : Prop :=
  (∀ (o : OpR) (s : State) (v : W64), Running s → Plain o → On s o → IsReg s o.d → sysView s o.a.toNat = some v →
     (s.cx.mode = true ∨ ¬ (9 ≤ o.a.toNat ∧ o.a.toNat ≤ 11)) →
     exec (.mfs o) s = .next (done (if o.a = 3 then l1Drop s (coreOf s.cur) else s) (regSet s o.d v) (lenR o))) ∧
  (∀ (o : OpR) (s : State), Running s → Plain o → On s o → Free s → IsReg s o.b →
     (s.cx.mode = true →
       (o.d = 4 → exec (.mts o) s = .next (done s { s.cx with fb := reg s o.b } (lenR o))) ∧
       (o.d = 5 → exec (.mts o) s = .next (done s { s.cx with bsp := reg s o.b } (lenR o))) ∧
       (o.d = 6 → exec (.mts o) s = .next (done s { s.cx with bsl := reg s o.b } (lenR o))) ∧
       (o.d = 10 → exec (.mts o) s = .next (done s { s.cx with epc := reg s o.b } (lenR o))) ∧
       (o.d = 7 → exec (.mts o) s = .next (done
         (updCore s (coreOf s.cur) (fun c => { c with pol := (reg s o.b).setWidth 4 }))
         { s.cx with pmode := (reg s o.b).getLsbD 5 } (lenR o)))) ∧
     (∀ n, n < 3 → o.d.toNat = 16 + n →
       exec (.mts o) s = .next (done s { s.cx with lc := setD s.cx.lc 0 n ((reg s o.b).setWidth 32) } (lenR o))))

/-! ## Integers, branches and predicates -/

/-- R224, R257: the integer instructions with two register operands write their result to d, and change nothing else. Division
towards zero, shifts by the low six bits, LEA by its scale. -/
def Obligations.IntegerTwoOperands : Prop :=
  ∀ e ∈ intTwo, ∀ (o : OpR) (s : State), Running s → Plain o → On s o → IsReg s o.d → IsReg s o.a → IsReg s o.b →
    exec (e.1 o) s = .next (done s (regSet s o.d (e.2 (reg s o.a) (reg s o.b))) (lenR o))

/-- R258: division at its edges: a divisor of 0 gives all ones and the dividend as remainder; the most negative number over −1
gives itself and a remainder of 0. None of them traps. -/
def Obligations.DivisionEdges : Prop :=
  ∀ (o : OpR) (s : State), Running s → Plain o → On s o → IsReg s o.d → IsReg s o.a → IsReg s o.b →
    (reg s o.b = 0 →
      exec (.div o) s = .next (done s (regSet s o.d 0xFFFFFFFFFFFFFFFF#64) (lenR o)) ∧
      exec (.divu o) s = .next (done s (regSet s o.d 0xFFFFFFFFFFFFFFFF#64) (lenR o)) ∧
      exec (.rem o) s = .next (done s (regSet s o.d (reg s o.a)) (lenR o)) ∧
      exec (.remu o) s = .next (done s (regSet s o.d (reg s o.a)) (lenR o))) ∧
    (reg s o.a = 0x8000000000000000#64 → reg s o.b = 0xFFFFFFFFFFFFFFFF#64 →
      exec (.div o) s = .next (done s (regSet s o.d 0x8000000000000000#64) (lenR o)) ∧
      exec (.rem o) s = .next (done s (regSet s o.d 0) (lenR o)))

/-- R257, R259: the shifts by a number, and the unary forms: counts of zero and one bits, sign and zero extensions. -/
def Obligations.IntegerOneOperand : Prop :=
  ∀ e ∈ intOne, ∀ (o : OpR) (s : State), Running s → Plain o → On s o → IsReg s o.d → IsReg s o.a →
    exec (e.1 o) s = .next (done s (regSet s o.d (e.2 (reg s o.a) o.b.toNat)) (lenR o))

/-- R260: ADDI, ANDI, ORI, XORI and SLTI with the sign-extended 14-bit immediate, or the 40-bit one of an X pair, executed
whatever the predicates hold. -/
def Obligations.IntegerImmediates : Prop :=
  ∀ e ∈ intImm, ∀ (o : OpI) (s : State), Running s → IsReg s o.d → IsReg s o.a →
    exec (e.1 o) s = .next (done s
      (regSet s o.d (e.2 (reg s o.a) (if o.has then (o.immh ++ o.imm).signExtend 64 else o.imm.signExtend 64)))
      (if o.has then 8 else 4))

/-- R224, R242: a register that was written reads what was written, g0 reads 0 whatever is written to it, and the others keep
theirs. R237, R257, R260: with operands of any form, ports among them: the destination is checked first, the operands are read
in order, each pop as it comes, and the result is written last. -/
def Obligations.IntegerAnyOperand : Prop :=
  ((∀ e ∈ intTwo, ∀ (o : OpR) (s s1 s2 s3 s4 : State) (a b : W64), Running s → Plain o → On s o →
     Does (checkG o.d) s () s1 → Does (rdG o.a) s1 a s2 → Does (rdG o.b) s2 b s3 → Does (wrG o.d (e.2 a b)) s3 () s4 →
     exec (e.1 o) s = .next (retire s4 (after s (lenR o)))) ∧
   (∀ e ∈ intOne, ∀ (o : OpR) (s s1 s2 s3 : State) (a : W64), Running s → Plain o → On s o →
     Does (checkG o.d) s () s1 → Does (rdG o.a) s1 a s2 → Does (wrG o.d (e.2 a o.b.toNat)) s2 () s3 →
     exec (e.1 o) s = .next (retire s3 (after s (lenR o)))) ∧
   (∀ e ∈ intImm, ∀ (o : OpI) (s s1 s2 s3 : State) (a : W64), Running s →
     Does (checkG o.d) s () s1 → Does (rdG o.a) s1 a s2 → Does (wrG o.d (e.2 a (immOf o))) s2 () s3 →
     exec (e.1 o) s = .next (retire s3 (after s (if o.has then 8 else 4))))) ∧
  (∀ (c : Ctx) (i j : Nat) (v : W64), i < 48 → j < 48 →
     gReg (setG c i v) i = (if i = 0 then 0 else v) ∧ gReg c 0 = 0 ∧ (j ≠ i → gReg (setG c i v) j = gReg c j))

/-- R231, R299: a predicated R, V or M word whose predicate does not hold, and a word that acts lane by lane with no lane on, has no
effect but that the pc moves on: it pops nothing, pushes nothing and faults on nothing, whatever its operands and its prefix are. R278:
an atomic with NEG is ILLEGAL, whatever its predicate holds, which is the model's reading (log 29). -/
def Obligations.PredicatedOffDoesNothing : Prop :=
  (∀ (o : OpR) (s : State), Running s →
     (¬ On s o → ∀ c ∈ scalarForms, exec (c o) s = .next (retire s (after s (lenR o)))) ∧
     (govern s o.p o.x.neg = 0 → ∀ c ∈ laneForms, exec (c o) s = .next (retire s (after s (lenR o)))) ∧
     (∀ e ∈ atomics,
       (o.x.neg = false → ¬ On s o → exec (e.1 o) s = .next (retire s (after s (lenR o)))) ∧
       (o.x.neg = true → exec (e.1 o) s = .next (takeTrap s { f := faultAt cILLEGAL 0, pc := s.cx.pc, ir := s.cx.ir })))) ∧
  (∀ (o : OpM) (s : State), Running s → ¬ OnM s o → ∀ e, e ∈ loads ∨ e ∈ stores →
     exec (e.1 o) s = .next (retire s (after s (lenM o))))

/-- R236, R257, R261: SEL, the bit-field instructions, LIH and ADDPC. -/
def Obligations.FieldsAndConstants : Prop :=
  (∀ (o : OpR) (s : State), Running s → Plain o → IsReg s o.d → IsReg s o.a → IsReg s o.b →
    exec (.sel o) s = .next (done s (regSet s o.d (if (pReg s.cx o.p.toNat).getLsbD 0 != o.x.neg then reg s o.a else reg s o.b))
      (lenR o))) ∧
  (∀ (o : OpBf) (s : State), Running s → IsReg s o.d → IsReg s o.a → o.pos.toNat + o.len.toNat + 1 ≤ 64 →
    exec (.bfx o) s = .next (done s
      (regSet s o.d (BitVec.ofNat 64 ((reg s o.a).toNat / 2 ^ o.pos.toNat % 2 ^ (o.len.toNat + 1)))) 4) ∧
    exec (.bfxS o) s = .next (done s
      (regSet s o.d (BitVec.ofInt 64 (Int.bmod ((reg s o.a).toNat / 2 ^ o.pos.toNat) (2 ^ (o.len.toNat + 1))))) 4) ∧
    (∃ v, exec (.bfi o) s = .next (done s (regSet s o.d v) 4) ∧ ∀ i, i < 64 →
      v.getLsbD i = if o.pos.toNat ≤ i ∧ i ≤ o.pos.toNat + o.len.toNat then (reg s o.a).getLsbD (i - o.pos.toNat)
        else (reg s o.d).getLsbD i)) ∧
  (∀ (o : OpU) (s : State), Running s → IsReg s o.d →
    exec (.lih o) s = .next (done s (regSet s o.d (BitVec.ofInt 64 (o.imm.toInt * 2 ^ 14))) 4) ∧
    exec (.addpc o) s = .next (done s (regSet s o.d (s.cx.pc + BitVec.ofInt 64 (o.imm.toInt * 2 ^ 14))) 4))

/-- R263: the compare branches go to the address of their word + 4 × offset where their condition holds, and else on; no register
changes. With operands of any form, ports among them, a is read first, then b, taken or not. -/
def Obligations.CompareBranches : Prop :=
  ∀ e ∈ branches, ∀ (o : OpB) (s : State), Running s → s.cx.pc.toNat % 4 = 0 →
    (IsReg s o.a → IsReg s o.b → exec (e.1 o) s = .next (retire s
      (if e.2 (reg s o.a) (reg s o.b) then s.cx.pc + BitVec.ofInt 64 (4 * o.off.toInt) else s.cx.pc + 4))) ∧
    (∀ (s1 s2 : State) (a b : W64), Does (rdG o.a) s a s1 → Does (rdG o.b) s1 b s2 →
      exec (e.1 o) s = .next (retire s2 (if e.2 a b then s.cx.pc + BitVec.ofInt 64 (4 * o.off.toInt) else s.cx.pc + 4))) ∧
    (-32768 ≤ 4 * o.off.toInt ∧ 4 * o.off.toInt ≤ 32764)

/-- R264, R265: BQE branches on the port's end of stream, BPA where any bit of the predicate is set, BPN where none is; LOOP
counts down, and branches until the count is used up. -/
def Obligations.OtherBranches : Prop :=
  ∀ (o : OpBx) (s : State), Running s → s.cx.pc.toNat % 4 = 0 →
    (isQ o.a = true → exec (.bqe o) s = .next (retire s
      (if (portAt s.cx (o.a.toNat - 48)).eos then s.cx.pc + BitVec.ofInt 64 (4 * o.off.toInt) else s.cx.pc + 4))) ∧
    (o.a.toNat < 8 →
      exec (.bpa o) s = .next (retire s
        (if pReg s.cx o.a.toNat ≠ 0 then s.cx.pc + BitVec.ofInt 64 (4 * o.off.toInt) else s.cx.pc + 4)) ∧
      exec (.bpn o) s = .next (retire s
        (if pReg s.cx o.a.toNat = 0 then s.cx.pc + BitVec.ofInt 64 (4 * o.off.toInt) else s.cx.pc + 4))) ∧
    (o.a.toNat < 3 → exec (.loop o) s = .next
      (let n := getD s.cx.lc 0 o.a.toNat
       if n = 0 then retire s (s.cx.pc + 4)
       else retire { s with cx := { s.cx with lc := setD s.cx.lc 0 o.a.toNat (n - 1) } }
         (if n = 1 then s.cx.pc + 4 else s.cx.pc + BitVec.ofInt 64 (4 * o.off.toInt))))

/-- R230, R242, R265: jumps and calls: a call needs a frame of 40 registers, and gives the callee a frame of 8 that begins 32
registers on, with the address of the instruction + 4 in g1. RET to a caller whose frame is resident, ENTER that needs no spill, and
LEAVE: the frame's base and size, and the registers that a larger frame gains, which read 0. That the address of a prefixed CALLR is its
X word's is the model's reading (log 29); a target that is not canonical is the model's choice (log 47). -/
def Obligations.JumpsAndCalls : Prop :=
  ((∀ (o : OpJ) (s : State), Running s → s.cx.pc.toNat % 4 = 0 →
     exec (.jmp o) s = .next (retire s (s.cx.pc + BitVec.ofInt 64 (4 * o.off.toInt))) ∧
     (s.cx.size = 40 → exec (.call o) s = .next (retire
       { s with cx := { setG s.cx 1 (s.cx.pc + 4) with fb := s.cx.fb + 32, size := 8 } }
       (s.cx.pc + BitVec.ofInt 64 (4 * o.off.toInt)))) ∧
     (s.cx.size ≠ 40 → exec (.call o) s = .next (trapped s (faultAt cILLEGAL 0)))) ∧
   (∀ (o : OpR) (s : State), Running s → Plain o → On s o → IsReg s o.a →
     ((reg s o.a).toNat % 4 = 0 → exec (.jmpr o) s = .next (retire s (reg s o.a))) ∧
     ((reg s o.a).toNat % 4 ≠ 0 → exec (.jmpr o) s = .next (trapped s (faultAt cALIGN (reg s o.a)))) ∧
     ((reg s o.a).toNat % 4 = 0 → s.cx.size = 40 → exec (.callr o) s = .next (retire
       { s with cx := { setG s.cx 1 (s.cx.pc + 4) with fb := s.cx.fb + 32, size := 8 } } (reg s o.a))) ∧
     (s.cx.size ≠ 40 → exec (.callr o) s = .next (trapped s (faultAt cILLEGAL 0))) ∧
     ((reg s o.a).toNat % 4 ≠ 0 → s.cx.size = 40 → exec (.callr o) s = .next (trapped s (faultAt cALIGN (reg s o.a)))))) ∧
  (∀ (o : OpR) (s : State), Running s → Plain o → On s o →
     (s.cx.fb ≠ 0 → s.cx.rlo + 32 ≤ s.cx.fb.toNat → (gReg s.cx 1).toNat % 4 = 0 →
       exec (.ret o) s = .next (retire { s with cx := { s.cx with fb := s.cx.fb - 32, size := 40 } } (gReg s.cx 1))) ∧
     (1 ≤ o.b.toNat → o.b.toNat ≤ 5 → s.cx.fb.toNat + 8 * o.b.toNat ≤ 256 + s.cx.rlo → ∃ c,
       exec (.enter o) s = .next (done s c (lenR o)) ∧ c = { s.cx with size := 8 * o.b.toNat, phys := c.phys } ∧
       (∀ k, s.cx.size ≤ k → k < 8 * o.b.toNat → getD c.phys 0 ((s.cx.fb.toNat + k) % 256) = 0) ∧
       ∀ i, (∀ k, s.cx.size ≤ k → k < 8 * o.b.toNat → (s.cx.fb.toNat + k) % 256 ≠ i) → getD c.phys 0 i = getD s.cx.phys 0 i) ∧
     ((s.cx.fb = 0 ∨ s.cx.rlo + 32 ≤ s.cx.fb.toNat) →
       exec (.leave o) s = .next (done s { s.cx with size := 8 } (lenR o))))

/-- R266: predicates lane by lane, where the instruction's own predicate is on; the other lanes of d keep their bit. PCNT counts
bits, PSETI sets all 16. p0 is no destination: it, or a d above 7, raises ILLEGAL, as a source above 7 does. -/
def Obligations.PredicateInstructions : Prop :=
  (∀ e ∈ predOps, ∀ (o : OpR) (s : State), Running s → Plain o → govern s o.p o.x.neg ≠ 0 → isPd o.d = true → isP o.a = true →
    isP o.b = true → ∃ v, exec (e.1 o) s = .next (done s (setP s.cx o.d.toNat v) (lenR o)) ∧
      ∀ i, i < 16 → v.getLsbD i = if (govern s o.p o.x.neg).getLsbD i
        then e.2 ((pReg s.cx o.a.toNat).getLsbD i) ((pReg s.cx o.b.toNat).getLsbD i) else (pReg s.cx o.d.toNat).getLsbD i) ∧
  (∀ (o : OpR) (s : State), Running s → Plain o → On s o → IsReg s o.d → isP o.a = true →
    exec (.pcnt o) s = .next (done s (regSet s o.d (BitVec.ofNat 64
      ((range' 0 16).filter (fun i => (pReg s.cx o.a.toNat).getLsbD i)).length)) (lenR o))) ∧
  (∀ (o : OpPset) (s : State), Running s → isPd o.d = true →
    exec (.pseti o) s = .next (done s (setP s.cx o.d.toNat o.mask) 4)) ∧
  (∀ (o : OpR) (s : State), Running s →
    (∀ e ∈ predOps, govern s o.p o.x.neg ≠ 0 → (isPd o.d = false ∨ isP o.a = false) →
      exec (e.1 o) s = .next (takeTrap s { f := faultAt cILLEGAL 0, pc := s.cx.pc, ir := s.cx.ir })) ∧
    (On s o → isP o.a = false → exec (.pcnt o) s = .next (takeTrap s { f := faultAt cILLEGAL 0, pc := s.cx.pc, ir := s.cx.ir }))) ∧
  (∀ (o : OpPset) (s : State), Running s → isPd o.d = false →
    exec (.pseti o) s = .next (takeTrap s { f := faultAt cILLEGAL 0, pc := s.cx.pc, ir := s.cx.ir }))

/-! ## Memory -/

/-- R10, R18, R30, R35: the checks of a core's access in their order: a VA that is not canonical faults ADDR, a misaligned one ALIGN,
one whose walk has found no leaf PAGE, one that the leaf forbids PROT; each before any effect; one whose leaf is not held waits
for its walk. R17-R20, R35: the checks of an S-space
access: above the S-space or at no bank or node ADDR, misaligned ALIGN, a supervisor region in U mode PROT, and else its own
address. -/
def Obligations.AddressChecks : Prop :=
  (∀ (s : State) (va : W64) (acc : Acc) (n align : Nat) (scalar : Bool),
     (canon va = false → translate va acc n align scalar s = .error (.trap (faultAt cADDR va) none) s) ∧
     (canon va = true → va.toNat % align ≠ 0 → translate va acc n align scalar s = .error (.trap (faultAt cALIGN va) none) s) ∧
     (canon va = true → va.toNat % align = 0 → coreLeaf s s.cur va.toNat = .faults →
       translate va acc n align scalar s = .error (.trap (faultAt cPAGE va) none) s) ∧
     (∀ t, canon va = true → va.toNat % align = 0 → coreLeaf s s.cur va.toNat = .walks t →
       translate va acc n align scalar s = .error (.wait (.walk (pageOf va.toNat)) (some t)) t) ∧
     (∀ e t, canon va = true → va.toNat % align = 0 → coreLeaf s s.cur va.toNat = .held e t →
       permits e.leaf.toNat acc s.cx.mode = false →
       translate va acc n align scalar s = .error (.trap (faultAt cPROT va) none) s)) ∧
  (∀ (s : State) (ea : W64) (align : Nat) (super : Bool),
     (2 ^ 32 ≤ ea.toNat → checkS s ea align super = .error (faultAt cADDR ea)) ∧
     (ea.toNat < 2 ^ 32 → sPlace s ea.toNat = .absent → checkS s ea align super = .error (faultAt cADDR ea)) ∧
     (ea.toNat < 2 ^ 32 → sPlace s ea.toNat ≠ .absent → ea.toNat % align ≠ 0 → checkS s ea align super = .error (faultAt cALIGN ea)) ∧
     (ea.toNat < 2 ^ 32 → sPlace s ea.toNat ≠ .absent → ea.toNat % align = 0 → super = false → (srgn s ea.toNat).2 = true →
       checkS s ea align super = .error (faultAt cPROT ea)) ∧
     (ea.toNat < 2 ^ 32 → sPlace s ea.toNat ≠ .absent → ea.toNat % align = 0 → (super = true ∨ (srgn s ea.toNat).2 = false) →
       checkS s ea align super = .ok ea.toNat))

/-- R62, R268: LD and LDS of each size zero-extend what the context sees at the address: its own buffered bytes, and memory's
elsewhere. R237, R268: a load with operands of any form, from any target that is no device register: the destination is
checked, the base is read, the bytes are loaded, the destination is written. -/
def Obligations.Loads : Prop :=
  (∀ e ∈ loads, ∀ (o : OpM) (s s1 : State) (x : Xl), Running s → OnM s o → IsReg s o.t → IsReg s o.a →
     Does (xlAny e.2.1 (reg s o.a + offOf o e.2.2) .rd e.2.2 true) s x s1 → x.t ≠ 3 → x.c = false → x.loc < peerBase → s1.cx = s.cx →
     Quiet s1 x.loc e.2.2 →
     exec (e.1 o) s = .next (retire { s1 with cx := regSet s1 o.t (BitVec.ofNat 64 (natOfBytes (seen s1 x.loc e.2.2))) }
       (after s (lenM o)))) ∧
  (∀ e ∈ loads, ∀ (o : OpM) (s s1 s2 s3 s4 : State) (a : W64) (v : Nat), Running s → OnM s o →
     Does (checkG o.t) s () s1 → Does (rdG o.a) s1 a s2 → Does (loadScalar e.2.1 (a + offOf o e.2.2) e.2.2) s2 v s3 →
     Does (wrG o.t (BitVec.ofNat 64 v)) s3 () s4 →
     exec (e.1 o) s = .next (retire s4 (after s (lenM o))))

/-- R61, R268: ST and STS put the low bytes of t into the context's store buffer, where its own loads see them; memory, the tags
and every register are unchanged. R237, R268: a store with operands of any form, to any target that is no device register: t
is read, then the base, and the bytes are stored. Publication of the buffer is one step (log 9). -/
def Obligations.Stores : Prop :=
  (∀ e ∈ stores, ∀ (o : OpM) (s s1 : State) (x : Xl), Running s → OnM s o → IsReg s o.t → IsReg s o.a →
     Does (xlAny e.2.1 (reg s o.a + offOf o e.2.2) .wr e.2.2 true) s x s1 → x.t ≠ 3 → s1.cx = s.cx →
     isTs s1 s1.cx = false → s1.cx.posted = [] → s1.cx.committing = false → x.loc % 64 + e.2.2 ≤ 64 → ownUsed s1 s1.cur < 16 →
     ∃ sb, exec (e.1 o) s = .next (retire { s1 with cx := { s1.cx with sb := sb } } (after s (lenM o))) ∧
       ∀ l, ownByte { s1.cx with sb := sb } l =
         if x.loc ≤ l ∧ l < x.loc + e.2.2 then some (BitVec.ofNat 8 ((reg s o.t).toNat / 256 ^ (l - x.loc)))
         else ownByte s1.cx l) ∧
  (∀ e ∈ stores, ∀ (o : OpM) (s s1 s2 s3 s4 : State) (a t : W64) (x : Xl), Running s → OnM s o →
     Does (rdG o.t) s t s1 → Does (rdG o.a) s1 a s2 → Does (xlAny e.2.1 (a + offOf o e.2.2) .wr e.2.2 true) s2 x s3 → x.t ≠ 3 →
     Does (storeBytes x.va x.loc (bytesOfNat e.2.2 t.toNat) none x.o) s3 () s4 →
     exec (e.1 o) s = .next (retire s4 (after s (lenM o))))

/-- R16, R268: a load of a device register by a free or frontier task clears the register's RC fields among its bytes, and a store
acts as the register's description says once it has retired (log 21). R4, R16, R415: an 8-byte read of a register gives its
value, and clears exactly its RC fields. -/
def Obligations.DeviceRegisterAccess : Prop :=
  ((∀ e ∈ loads, ∀ (o : OpM) (s s1 : State) (x : Xl), Running s → OnM s o → IsReg s o.t → IsReg s o.a → Free s1 → s1.cx = s.cx →
     Does (xlAny e.2.1 (reg s o.a + offOf o e.2.2) .rd e.2.2 true) s x s1 → x.t = 3 →
     exec (e.1 o) s = .next (retire
       (let r := regRead { s1 with cx := exposedCtx s1.cx } (x.pa % 2 ^ 32) e.2.2
        { r.2 with cx := setG r.2.cx o.t.toNat (BitVec.ofNat 64 r.1) }) (after s (lenM o)))) ∧
   (∀ e ∈ stores, ∀ (o : OpM) (s s1 t : State) (x : Xl), Running s → OnM s o → IsReg s o.t → IsReg s o.a → Free s1 → s1.cx = s.cx →
     Does (xlAny e.2.1 (reg s o.a + offOf o e.2.2) .wr e.2.2 true) s x s1 → x.t = 3 → x.pa % 2 ^ 32 ≠ 0x100A08 →
     regWrite { s1 with cx := exposedCtx s1.cx } (x.pa % 2 ^ 32) e.2.2 (reg s o.t).toNat = .ok t →
     ∀ u, regWrite (retire { s1 with cx := exposedCtx s1.cx } (after s (lenM o))) (x.pa % 2 ^ 32) e.2.2 (reg s o.t).toNat = .ok u →
     exec (e.1 o) s = .next u)) ∧
  (∀ (s : State) (off : Nat), off % 8 = 0 → regView s off < 2 ^ 64 →
     (regRead s off 8).1 = regView s off ∧
     (regRead s off 8).2 = (if rcMask off % 2 ^ 64 = 0 then s
       else setDev s off (BitVec.ofNat 64 (Nat.land (dev s off) (2 ^ 64 - 1 - rcMask off % 2 ^ 64)))))

/-- R272: VLD, VST and VLDST, in either space: the effective address is that of a 64-byte line; the lanes that are on move. R272:
what the lanes of a line hold: where a lane is on, the four bytes that the context sees at its place. R273: VGATH and VSCAT:
lane i at a + 4 × sext(b[i]), in ascending order, where it is on. -/
def Obligations.VectorMemory : Prop :=
  (∀ (o : OpR) (s : State), Running s → okXimm o.x = true → govern s o.p o.x.neg ≠ 0 → IsReg s o.a →
     (∀ e ∈ [((Instr.vld : OpR → Instr), false), (.vldS, true)], ∀ (x : Xl) (s1 s2 : State) (l : List W32), IsVec o.d →
       Does (xlAny e.2 (reg s o.a + ximmOf o.x 64) .rd 64 false) s x s1 →
       Does (loadLanes x (reg s o.a + ximmOf o.x 64) (govern s o.p o.x.neg) 16 []) s1 l s2 →
       ∃ v, exec (e.1 o) s = .next (retire { s2 with cx := { s2.cx with v := setD s2.cx.v 0 o.d.toNat v } } (after s (lenR o))) ∧
         ∀ i, i < 16 → lane v i = if (govern s o.p o.x.neg).getLsbD i then l.getD i 0 else lane (getD s2.cx.v 0 o.d.toNat) i) ∧
     (∀ e ∈ [((Instr.vst : OpR → Instr), false), (.vstS, true)], ∀ (x : Xl) (s1 s2 : State), IsVec o.b →
       Does (xlAny e.2 (reg s o.a + ximmOf o.x 64) .wr 64 false) s x s1 →
       Does (storeLanes x (govern s o.p o.x.neg) (getD s.cx.v 0 o.b.toNat)) s1 () s2 →
       exec (e.1 o) s = .next (retire s2 (after s (lenR o)))) ∧
     (∀ e ∈ [((Instr.vldst : OpR → Instr), false), (.vldstS, true)], ∀ (x : Xl) (s1 s2 s3 : State) (l : List W32), IsVec o.d →
       IsVec o.b →
       Does (xlAny e.2 (reg s o.a + ximmOf o.x 64) .rw 64 false) s x s1 →
       Does (loadLanes x (reg s o.a + ximmOf o.x 64) (govern s o.p o.x.neg) 16 []) s1 l s2 →
       Does (storeLanes x (govern s o.p o.x.neg) (getD s.cx.v 0 o.b.toNat)) s2 () s3 →
       ∃ v, exec (e.1 o) s = .next (retire { s3 with cx := { s3.cx with v := setD s3.cx.v 0 o.d.toNat v } } (after s (lenR o))) ∧
         ∀ i, i < 16 → lane v i = if (govern s o.p o.x.neg).getLsbD i then l.getD i 0 else lane (getD s3.cx.v 0 o.d.toNat) i)) ∧
  (∀ (s : State) (x : Xl) (ea : W64) (g : BitVec 16), x.c = false → x.loc % 64 = 0 → x.loc < peerBase → Quiet s x.loc 64 →
     ∃ l, Does (loadLanes x ea g 16 []) s l s ∧
       ∀ i, i < 16 → g.getLsbD i = true → l.getD i 0 = BitVec.ofNat 32 (natOfBytes (seen s (x.loc + 4 * i) 4))) ∧
  (∀ (o : OpR) (s : State), Running s → Plain o → govern s o.p o.x.neg ≠ 0 → IsReg s o.a → IsVec o.d → IsVec o.b →
     (∀ e ∈ [((Instr.vgath : OpR → Instr), false), (.vgathS, true)], ∀ (s1 : State) (l : List W32),
       Does ((range' 0 16).mapM (fun i => (if (govern s o.p o.x.neg).getLsbD i then atLane i (do
         let ea := reg s o.a + (lane (getD s.cx.v 0 o.b.toNat) i).signExtend 64 * 4
         let x ← xlAny e.2 ea .rd 4 false
         let bs ← loadBytes x 4 ea
         pure (BitVec.ofNat 32 (natOfBytes bs))) else pure 0 : Act W32))) s l s1 →
       ∃ v, exec (e.1 o) s = .next (retire { s1 with cx := { s1.cx with v := setD s1.cx.v 0 o.d.toNat v } } (after s (lenR o))) ∧
         ∀ i, i < 16 → lane v i = if (govern s o.p o.x.neg).getLsbD i then l.getD i 0 else lane (getD s1.cx.v 0 o.d.toNat) i) ∧
     (∀ e ∈ [((Instr.vscat : OpR → Instr), false), (.vscatS, true)], ∀ (s1 : State),
       Does ((range' 0 16).forM (fun i => if (govern s o.p o.x.neg).getLsbD i then atLane i (do
         let ea := reg s o.a + (lane (getD s.cx.v 0 o.b.toNat) i).signExtend 64 * 4
         let x ← xlAny e.2 ea .wr 4 false
         storeBytes x.va x.loc (bytesOfNat 4 (lane (getD s.cx.v 0 o.d.toNat) i).toNat) none x.o) else pure ())) s () s1 →
       exec (e.1 o) s = .next (retire s1 (after s (lenR o)))))

/-- R103, R275-R277: LDBM of an element chunk of a good block writes the chunk's elements, those without a mask bit as 0; STBM of
a chunk that the block has room for writes its kept values, its mask bits and the header. -/
def Obligations.BmvBlocks : Prop :=
  (∀ e ∈ [((Instr.ldbm : OpR → Instr), false), (.ldbmS, true)], ∀ (o : OpR) (s s1 s2 s3 s4 : State) (hb mb vb : List Byte), Running s →
    okXimm o.x = true → bmvFmt o.x.ximm.toNat = true → On s o → IsVec o.d → IsReg s o.a → IsReg s o.b →
    Does (loadWhole e.2 (reg s o.a) 16) s hb s1 →
    (bmvHdr hb).n ≠ 0 → (bmvHdr hb).bad = false → (bmvHdr hb).fmt = o.x.ximm.toNat → (bmvHdr hb).nnz ≤ (bmvHdr hb).cap →
    (bmvHdr hb).nnz ≤ (bmvHdr hb).n → (reg s o.b).toNat % (64 / elemSize o.x.ximm.toNat) = 0 → (reg s o.b).toNat < (bmvHdr hb).n →
    Does (spanCheck e.2 (reg s o.a) .rd (16 + bmvMask (bmvHdr hb).n + bmvVals (bmvHdr hb).cap (elemSize o.x.ximm.toNat))) s1 () s2 →
    Does (spanLoad e.2 (reg s o.a + 16) (bmvMask (bmvHdr hb).n)) s2 mb s3 →
    maskCount mb (8 * bmvMask (bmvHdr hb).n) = (bmvHdr hb).nnz →
    Does (spanLoad e.2
      (reg s o.a + BitVec.ofNat 64 (16 + bmvMask (bmvHdr hb).n + elemSize o.x.ximm.toNat * maskCount mb (reg s o.b).toNat))
      (elemSize o.x.ximm.toNat * (maskCount mb (min ((reg s o.b).toNat + 64 / elemSize o.x.ximm.toNat) (bmvHdr hb).n) -
        maskCount mb (reg s o.b).toNat))) s3 vb s4 →
    ∃ v, exec (e.1 o) s = .next (retire { s4 with cx := { s4.cx with v := setD s4.cx.v 0 o.d.toNat v } } (after s (lenR o))) ∧
      v = BitVec.ofNat 512 ((ldbmElems mb ((range' 0 (maskCount mb (min ((reg s o.b).toNat + 64 / elemSize o.x.ximm.toNat)
          (bmvHdr hb).n) - maskCount mb (reg s o.b).toNat)).map (fun i =>
            natOfBytes ((vb.drop (elemSize o.x.ximm.toNat * i)).take (elemSize o.x.ximm.toNat)))) (reg s o.b).toNat (bmvHdr hb).n
          (64 / elemSize o.x.ximm.toNat) 0).foldl (fun a e => a + e.2 * 2 ^ (8 * elemSize o.x.ximm.toNat * e.1)) 0)) ∧
  (∀ e ∈ [((Instr.stbm : OpR → Instr), false), (.stbmS, true)], ∀ (o : OpR) (s s1 s2 s3 s4 s5 : State) (hb : List Byte)
    (els : List (Nat × Nat)) (nnz m : Nat), Running s →
    okXimm o.x = true → bmvFmt o.x.ximm.toNat = true → On s o → IsVec o.b → IsReg s o.a → IsReg s o.d →
    Does (loadWhole e.2 (reg s o.a) 16) s hb s1 →
    (bmvHdr hb).n ≠ 0 → (bmvHdr hb).bad = false → (bmvHdr hb).fmt = o.x.ximm.toNat →
    (reg s o.d).toNat % (64 / elemSize o.x.ximm.toNat) = 0 → (reg s o.d).toNat + 64 / elemSize o.x.ximm.toNat < (bmvHdr hb).n →
    ((reg s o.d).toNat = 0 ∨ ((bmvHdr hb).ovr = false ∧ (bmvHdr hb).nnz ≤ (bmvHdr hb).cap)) →
    bmvScan (bmvHdr hb) (getD s.cx.v 0 o.b.toNat) (reg s o.d).toNat (elemSize o.x.ximm.toNat) (64 / elemSize o.x.ximm.toNat) 0
      (if (reg s o.d).toNat = 0 then 0 else (bmvHdr hb).nnz) [] 0 = (els, nnz, m, none) →
    Does (spanCheck e.2 (reg s o.a) .wr (16 + bmvMask (bmvHdr hb).n + bmvVals (bmvHdr hb).cap (elemSize o.x.ximm.toNat))) s1 () s2 →
    Does (els.forM (fun x => storeSpan e.2
      (reg s o.a + BitVec.ofNat 64 (16 + bmvMask (bmvHdr hb).n + elemSize o.x.ximm.toNat * x.1))
      (bytesOfNat (elemSize o.x.ximm.toNat) x.2))) s2 () s3 →
    Does (storeSpan e.2 (reg s o.a + BitVec.ofNat 64 (16 + (reg s o.d).toNat / 8))
      (bytesOfNat (64 / elemSize o.x.ximm.toNat / 8) m)) s3 () s4 →
    Does (storeSpan e.2 (reg s o.a) (bytesOfNat 8 ((bmvHdr hb).n + 2 ^ 16 * nnz + 2 ^ 32 * (bmvHdr hb).cap +
      2 ^ 48 * (bmvHdr hb).fmt + (if (bmvHdr hb).zneg then 2 ^ 52 else 0)))) s4 () s5 →
    exec (e.1 o) s = .next (retire s5 (after s (lenR o))))

/-- R47, R48, R269-R271: in a free task, LDF of a full word gives the word, LDF.C empties its tag as well, FESET sets or clears
the tag after what its port holds, and FEQRY reads it; the word itself is unchanged. R41, R48, R53: LDF of an empty word takes its turn
at its port, after what its context has posted to the line, and waits where the wait table has room: the pc and every register stay as
that leaves them, and nothing of it changes where nothing was queued. R168, R270: STE of a free task publishes the context's stores, writes its 8 bytes at their
home, and then sets the tag full. -/
def Obligations.FullEmptyAccess : Prop :=
  (∀ (o : OpR) (s : State) (x : Xl) (k : TagKey) (bs : List Byte), Running s → okXimm o.x = true → On s o → isTs s s.cx = false →
     IsReg s o.a → Does (tagAccess (reg s o.a) o.x) s (x, k) s →
     (IsReg s o.d → s.cx.got = none → ownTag s x.loc = true → ownTagChange s.cx x.loc = none →
       Does (loadBytes x 8 (reg s o.a + ximmOf o.x 8)) s bs s →
       exec (.ldf o) s = .next (retire (let t := l1Drop s (coreOf s.cur)
         { t with cx := setG t.cx o.d.toNat (BitVec.ofNat 64 (natOfBytes bs)) }) (after s (lenR o))) ∧
       (∃ t, exec (.ldfC o) s = .next t ∧ t.mem = s.mem ∧
         t.tags = (setTag s k false).tags ∧ t.cx.g = (setG s.cx o.d.toNat (BitVec.ofNat 64 (natOfBytes bs))).g ∧
         t.cx.phys = (setG s.cx o.d.toNat (BitVec.ofNat 64 (natOfBytes bs))).phys)) ∧
     exec (.fesetF o) s = .next (retire (let t := setTag (portTurn (drainPosted s s.cur (x.loc / 64)) false x.loc) k true
       { t with cx := exposedCtx t.cx }) (after s (lenR o))) ∧
     exec (.fesetE o) s = .next (retire (let t := setTag (portTurn (drainPosted s s.cur (x.loc / 64)) false x.loc) k false
       { t with cx := exposedCtx t.cx }) (after s (lenR o))) ∧
     (IsReg s o.d → exec (.feqry o) s = .next (done s (regSet s o.d (if ownTag s x.loc then 1 else 0)) (lenR o)))) ∧
  (∀ (o : OpR) (s : State) (x : Xl) (k : TagKey), Running s → okXimm o.x = true → On s o → isTs s s.cx = false →
     IsReg s o.a → IsReg s o.d → Does (tagAccess (reg s o.a) o.x) s (x, k) s → s.cx.got = none → ownTag s x.loc = false →
     ∀ u, u = portTurn (drainPosted s s.cur (x.loc / 64)) false x.loc → (s.cx.posted = [] → s.nodes = [] → u = s) ∧
       (ownTagChange u.cx x.loc = none → (nodeAt u (nodeKey k)).waiters.length < 16 → cancelHits u u.cur = false →
         ∃ t, exec (.ldf o) s = .next t ∧ t.cx.wait = some (.tag x.loc false) ∧ SameRegs u.cx t.cx ∧ t.mem = u.mem ∧
           (nodeAt t (nodeKey k)).waiters = (nodeAt u (nodeKey k)).waiters ++ [(tagNum k, u.cur)])) ∧
  (∀ (o : OpR) (s s1 : State) (x : Xl) (k : TagKey), Running s → okXimmScp o.x = true → On s o → isTs s s.cx = false →
     IsReg s o.a → IsReg s o.b → Does (tagAccess (reg s o.a) o.x) s (x, k) s → Does (releaseAt (scopeOf o.x 4)) s () s1 →
     exec (.ste o) s = .next (retire
       (let t := setTag (homeWrite (portTurn (drainPosted s1 s1.cur (x.loc / 64)) false x.loc) x.loc (bytesOfNat 8 (reg s o.b).toNat)) k true
        { t with cx := exposedCtx t.cx }) (after s (lenR o))))

/-- R167, R282, R283: FENCE is a release, an acquire or both at its scope; FENCEQ first drops the read-ahead of the input patterns
that its mask names. R59, R161, R167: a release of a free task performs its posted atomics and publishes its stores; an
acquire at CLUSTER or wider drops the core's L1. Publication is one step (log 9). -/
def Obligations.Fences : Prop :=
  (∀ (o : OpR) (s s1 s2 : State), Running s → On s o → o.x.rm = 0 → scpOk o.x = true →
     (o.x.ximm = 0 → Does (if o.x.ord = 1 then pure () else releaseAt (scopeOf o.x 4)) s () s1 →
       Does (if o.x.ord = 2 then pure () else acquire (scopeOf o.x 4)) s1 () s2 →
       exec (.fence o) s = .next (retire s2 (after s (lenR o)))) ∧
     (o.x.ximm.getLsbD 16 = false → Does (if o.x.ord = 1 then pure () else releaseAt (scopeOf o.x 4)) (rereadPorts s o.x.ximm) () s1 →
       Does (if o.x.ord = 2 then pure () else acquire (scopeOf o.x 4)) s1 () s2 →
       exec (.fenceq o) s = .next (retire s2 (after s (lenR o))))) ∧
  (∀ (s : State) (scope : Nat),
     (isTs (drainAll s s.cur) (drainAll s s.cur).cx = false → scope < 5 →
       Does (releaseAt scope) s () (publishCtx (drainAll s s.cur) (drainAll s s.cur).cur)) ∧
     Does (acquire scope) s () (if 2 ≤ scope then l1Drop s (coreOf s.cur) else s))

/-- R59, R60, R65, R274, R342, R343: the cache and translation instructions: what they drop, and that no register changes, in the walk
over the range, in the release and in what they drop. What the model reads into the rules is log 37. -/
def Obligations.CacheInstructions : Prop :=
  ∀ (o : OpR) (s : State), Running s → On s o →
    (Plain o → IsReg s o.a → IsReg s o.b →
      (∀ r t, Does (runsOf (reg s o.a) (reg s o.b)) s r t →
        SameRegs s.cx t.cx ∧
        exec (.cinv o) s = .next (retire (updCore t (coreOf t.cur) (fun c => { c with
          l1d := c.l1d.filter (fun l => !inRange r (reg s o.b) l.line) })) (after s (lenR o))) ∧
        exec (.cwb o) s = .next (retire ((t.clusters.flatMap (fun c => (c.2.lines.map (·.line)).filter
          (inRange r (reg s o.b)))).foldl recallLine t) (after s (lenR o))) ∧
        SameRegs s.cx ((t.clusters.flatMap (fun c => (c.2.lines.map (·.line)).filter (inRange r (reg s o.b)))).foldl recallLine t).cx ∧
        (∀ t1, Does release t () t1 → SameRegs s.cx t1.cx ∧
          exec (.synci o) s = .next (retire (updCore t1 (coreOf t1.cur) (fun c => { c with
            icache := c.icache.filter (fun l => !inRange r (reg s o.b) l.line) })) (after s (lenR o))))) ∧
      (s.cx.mode = true → Free s → ∀ s1, Does release s () s1 →
        SameRegs s.cx s1.cx ∧ SameRegs s.cx (invalAll s1).cx ∧ (∀ n, SameRegs s.cx (invalVas (reg s o.a) n s1).cx) ∧
        exec (.tlbinvAll o) s = .next (retire (invalAll s1) (after s (lenR o))) ∧
        exec (.tlbinvVa o) s = .next (retire (invalVas (reg s o.a) 1 s1) (after s (lenR o))) ∧
        exec (.tlbinvRng o) s = .next (retire (invalVas (reg s o.a) (reg s o.b).toNat s1) (after s (lenR o))))) ∧
    (okXimm o.x = true → IsReg s o.a →
      exec (.prefS o) s = .next (retire s (after s (lenR o))) ∧
      (∀ t, Does (prefetch (reg s o.a + ximmOf o.x 64)) s () t →
        exec (.pref o) s = .next (retire t (after s (lenR o))) ∧ SameRegs s.cx t.cx ∧ (s.cx.posted = [] → t.cx = s.cx)))

/-- Table 2-5: what each atomic operation leaves in its word, over a word of n bytes. R51: a floating add keeps a NaN from its
operands, or from infinities of opposite sign, as the canonical one; an infinity stays; a zero leaves the other operand; the sum of
two finite values is rounded once, to nearest even, and is +0 where it is zero. -/
def Obligations.AtomicOperations : Prop :=
  (∀ (n old v e : Nat), 0 < n → old < 2 ^ (8 * n) → v < 2 ^ (8 * n) → e < 2 ^ (8 * n) →
    atomNew .add n old v e = (old + v) % 2 ^ (8 * n) ∧
    atomNew .min n old v e = (if Int.bmod v (2 ^ (8 * n)) < Int.bmod old (2 ^ (8 * n)) then v else old) ∧
    atomNew .max n old v e = (if Int.bmod old (2 ^ (8 * n)) < Int.bmod v (2 ^ (8 * n)) then v else old) ∧
    atomNew .minu n old v e = Nat.min old v ∧ atomNew .maxu n old v e = Nat.max old v ∧
    atomNew .and n old v e = Nat.land old v ∧ atomNew .or n old v e = Nat.lor old v ∧ atomNew .xor n old v e = Nat.xor old v ∧
    atomNew .swap n old v e = v ∧ atomNew .amaxrst n old v e = v ∧ atomNew .cas n old v e = (if old = e then v else old)) ∧
  (∀ p ∈ [(AtomOp.faddF32, 4, fp32, 0x7FC00000), (.faddBf16, 2, bf16, 0x7FC0)], ∀ (old v e : Nat),
    old < 2 ^ (8 * p.2.1) → v < 2 ^ (8 * p.2.1) →
    (((decodeFp p.2.2.1 old).isNan = true ∨ (decodeFp p.2.2.1 v).isNan = true) → atomNew p.1 p.2.1 old v e = p.2.2.2) ∧
    (∀ b, decodeFp p.2.2.1 old = .inf b →
      (decodeFp p.2.2.1 v = .inf (!b) → atomNew p.1 p.2.1 old v e = p.2.2.2 ∧ atomNew p.1 p.2.1 v old e = p.2.2.2) ∧
      ((decodeFp p.2.2.1 v).isNan = false → decodeFp p.2.2.1 v ≠ .inf (!b) →
        atomNew p.1 p.2.1 old v e = old ∧ atomNew p.1 p.2.1 v old e = old)) ∧
    (∀ n1 m1 e1 n2 m2 e2, decodeFp p.2.2.1 old = .fin n1 m1 e1 false → decodeFp p.2.2.1 v = .fin n2 m2 e2 false →
      (m1 ≠ 0 → m2 = 0 → atomNew p.1 p.2.1 old v e = old ∧ atomNew p.1 p.2.1 v old e = old) ∧
      (m1 = 0 → m2 = 0 → atomNew p.1 p.2.1 old v e = if n1 && n2 then 2 ^ (8 * p.2.1 - 1) else 0) ∧
      (m1 ≠ 0 → m2 ≠ 0 → ∀ (x : Int) (t : Int), x = min 0 (min e1 e2) →
        t = (if n1 then -1 else 1) * ((m1 * 2 ^ (e1 - x).toNat : Nat) : Int) + (if n2 then -1 else 1) * ((m2 * 2 ^ (e2 - x).toNat : Nat) : Int) →
        atomNew p.1 p.2.1 old v e = if t = 0 then 0 else convert (.fin (decide (t < 0)) t.natAbs x false) p.2.2.1 .rne 0)))

/-- R50, R278-R280: an atomic on a quiet bank word, with a result register and no order: d takes the old value, the word its new
one; the core's copy of the line goes, every other byte and register is as before. CAS compares with d. R53-R55, R166,
R278-R281: an atomic of any form but a posted one, in either space, where its home is a bank or an atomic engine: the release
that its order asks for, the line dropped from the L1, the operation at its home, the acquire, the result. R54, R280: a posted
atomic, d being g0, joins the queue of its bank, and the context goes on. -/
def Obligations.Atomics : Prop :=
  (∀ e ∈ atomics, e.2.2.2 = true → ∀ (o : OpR) (s : State) (loc : Nat), Running s → okAtom o.x = true → o.x.ord = 0 → On s o → Free s →
     isTs s s.cx = false → IsReg s o.d → IsReg s o.a → IsReg s o.b → o.d ≠ 0 →
     checkObj s (reg s o.a + ximmOf o.x e.2.2.1) e.2.2.1 s.cx.mode = .ok loc → s.nodes = [] →
     Quiet s loc e.2.2.1 → s.cx.got = none → (∀ l, loc ≤ l → l < loc + e.2.2.1 → ownByte s.cx l = none) →
     exec (e.1 o) s = .next (done
       (signBy (disown (unpoison (wrBytes (l1DropLine s (coreOf s.cur) (loc / 64)) loc (bytesOfNat e.2.2.1
         (atomNew e.2.1 e.2.2.1 (rdNat s loc e.2.2.1) ((reg s o.b).toNat % 2 ^ (8 * e.2.2.1))
           (if e.2.1 = .cas then (reg s o.d).toNat % 2 ^ (8 * e.2.2.1) else 0)))) loc e.2.2.1) loc e.2.2.1) loc s.cx.author)
       (exposedCtx (regSet s o.d (BitVec.ofNat 64 (rdNat s loc e.2.2.1)))) (lenR o))) ∧
  (∀ e ∈ atomics, ∀ (o : OpR) (s s1 s2 s3 s4 s5 s6 : State) (exp a v old : W64) (x : Xl) (h : AtomHome), Running s → okAtom o.x = true →
     (e.2.1 = .cas → isQ o.d = false) → On s o →
     Does (do
       checkG o.d
       let ex ← (if e.2.1 == .cas then rdG o.d else pure 0)
       let a ← rdG o.a
       let v ← rdG o.b
       needFrontier
       pure (ex, a, v)) s (exp, a, v) s1 →
     Does (atomXl e.2.1 e.2.2.2 (a + ximmOf o.x e.2.2.1) e.2.2.1) s1 x s2 → atomHome s2 e.2.2.2 x = some h →
     (match h with
      | .register _ => False
      | _ => True) →
     Does (do
       markExposed
       if 2 ≤ o.x.ord.toNat then releaseAt (scopeOf o.x 4) else pure ()) s2 () s3 →
     Does (do
       let ts ← view (fun s => isTs s s.cx)
       if ts && x.o then ordered (x.loc / 64) true else pure ()
       upd (fun s => l1DropLine s (coreOf s.cur) (x.loc / 64))) s3 () s4 →
     ¬ (o.d = 0 ∧ o.x.ord.toNat % 2 = 0 ∧ h ≠ .peer) →
     Does (once (performAtomic h e.2.1 x (a + ximmOf o.x e.2.2.1) e.2.2.1 v exp)) s4 old s5 →
     Does (do
       if o.x.ord.toNat % 2 = 1 then acquire (scopeOf o.x 4) else pure ()
       wrG o.d old) s5 () s6 →
     exec (e.1 o) s = .next (retire s6 (after s (lenR o)))) ∧
  (∀ e ∈ atomics, e.2.2.2 = true → ∀ (o : OpR) (s : State) (loc : Nat), Running s → okAtom o.x = true → o.x.ord = 0 → On s o → Free s →
     isTs s s.cx = false → o.d = 0 → IsReg s o.a → IsReg s o.b →
     checkObj s (reg s o.a + ximmOf o.x e.2.2.1) e.2.2.1 s.cx.mode = .ok loc → s.cx.posted = [] →
     (nodeAt s (3 * siteKey loc)).portM.length < 16 →
     ∃ t, exec (e.1 o) s = .next t ∧ t.mem = s.mem ∧ t.cx.g = s.cx.g ∧ t.cx.phys = s.cx.phys ∧ t.cx.pc = pcOf (after s (lenR o)) ∧
       (nodeAt t (3 * siteKey loc)).portM = (nodeAt s (3 * siteKey loc)).portM ++
         [{ op := some e.2.1, loc := loc, size := e.2.2.1, data := reg s o.b, expected := 0, cid := some s.cur, elem := none,
            arrival := s.cycle }])

/-! ## Lanes and streams -/

/-- R299-R304, R307-R309, R317: the lane forms. Each lane that is on takes what its rule gives, from the lanes of a, b and (where
d is a source) d; a lane that is off keeps its value; nothing else changes. With operands of any form, ports among them, the
destination is checked, the sources are read in order and the merged lanes are written. What the special functions give is stated in
Rounding: their exact results, and R307's bracket; which of the two values of a bracket it is is free (log 11). -/
def Obligations.LaneInstructions : Prop :=
  ∀ e, e ∈ floatLanes ∨ e ∈ intLanes → ∀ (o : OpR) (s : State), Running s → e.ok o.x → govern s o.p o.x.neg ≠ 0 →
    isV o.d = true → isV o.a = true → (e.two = true → isV o.b = true) → (e.acc = true → isQ o.d = false) →
    (IsVec o.d → IsVec o.a → (e.two = true → IsVec o.b) →
      ∃ v, exec (e.ctor o) s = .next (done s (vecSet s o.d v) (lenR o)) ∧
        ∀ i, i < 16 → lane v i = if (govern s o.p o.x.neg).getLsbD i
          then e.f o.x (polOf s) (lane (vec s o.a) i) (lane (vec s o.b) i) (lane (vec s o.d) i) else lane (vec s o.d) i) ∧
    (∀ (s1 s2 s3 s4 s5 : State) (a b old : Vec), Does (checkV o.d) s () s1 → Does (rdV o.a) s1 a s2 →
      Does (if e.two then rdV o.b else pure 0) s2 b s3 → Does (oldLanes o.d (govern s o.p o.x.neg)) s3 old s4 →
      Does (wrV o.d (ofLanes (fun i => if (govern s o.p o.x.neg).getLsbD i
        then e.f o.x (polOf s3) (lane a i) (lane b i) (lane old i) else lane old i))) s4 () s5 →
      exec (e.ctor o) s = .next (retire s5 (after s (lenR o))))

/-- R303: a compare, of registers or with ports among its sources, writes the bits of a predicate where lanes are on, and keeps
the others; p0 is no destination, and RM is not accepted. -/
def Obligations.LaneCompares : Prop :=
  ∀ e ∈ laneTests, ∀ (o : OpR) (s : State), Running s →
    (Plain o → govern s o.p o.x.neg ≠ 0 → isV o.a = true → isV o.b = true →
      (isPd o.d = true →
        (isQ o.a = false → isQ o.b = false → ∃ m, exec (e.1 o) s = .next (done s (setP s.cx o.d.toNat m) (lenR o)) ∧
          ∀ i, i < 16 → m.getLsbD i = if (govern s o.p o.x.neg).getLsbD i
            then e.2 (polOf s) (lane (vec s o.a) i) (lane (vec s o.b) i) else (pReg s.cx o.d.toNat).getLsbD i) ∧
        (∀ (s1 s2 : State) (a b : Vec), Does (rdV o.a) s a s1 → Does (rdV o.b) s1 b s2 →
          ∃ m, exec (e.1 o) s = .next (retire { s2 with cx := setP s2.cx o.d.toNat m } (after s (lenR o))) ∧
            ∀ i, i < 16 → m.getLsbD i = if (govern s o.p o.x.neg).getLsbD i
              then e.2 (polOf s2) (lane a i) (lane b i) else (pReg s2.cx o.d.toNat).getLsbD i)) ∧
      (isPd o.d = false → exec (e.1 o) s = .next (takeTrap s { f := faultAt cILLEGAL 0, pc := s.cx.pc, ir := s.cx.ir }))) ∧
    (o.x.rm ≠ 0 → govern s o.p o.x.neg ≠ 0 → exec (e.1 o) s = .next (takeTrap s { f := faultAt cILLEGAL 0, pc := s.cx.pc, ir := s.cx.ir }))

/-- R305: a reduction leaves its result in lane 0 and 0 in the others. An integer sum wraps; an integer extremum is that of the
lanes that are on; an FP32 one is formed by the pairwise tree from leaves that are flushed. R306: a scan's lane that is on
holds the sum of the lanes that are on up to it, in ascending order; with FP32 the sum before it, rounded, and its own leaf
make one node. -/
def Obligations.ReductionsAndScans : Prop :=
  (∀ (o : OpR) (s : State), Running s → govern s o.p o.x.neg ≠ 0 → IsVec o.d → IsVec o.a →
     (Plain o →
       exec (.vredAddI32 o) s = .next (done s (vecSet s o.d ((BitVec.ofNat 32 ((range' 0 16).foldl (fun t i =>
         if (govern s o.p o.x.neg).getLsbD i then t + (lane (vec s o.a) i).toNat else t) 0)).setWidth 512)) (lenR o)) ∧
       (∃ r : W32, exec (.vredMaxI32 o) s = .next (done s (vecSet s o.d (r.setWidth 512)) (lenR o)) ∧
         (∃ i, i < 16 ∧ (govern s o.p o.x.neg).getLsbD i = true ∧ r = lane (vec s o.a) i) ∧
         ∀ i, i < 16 → (govern s o.p o.x.neg).getLsbD i = true → (lane (vec s o.a) i).toInt ≤ r.toInt) ∧
       (∃ r : W32, exec (.vredMinI32 o) s = .next (done s (vecSet s o.d (r.setWidth 512)) (lenR o)) ∧
         (∃ i, i < 16 ∧ (govern s o.p o.x.neg).getLsbD i = true ∧ r = lane (vec s o.a) i) ∧
         ∀ i, i < 16 → (govern s o.p o.x.neg).getLsbD i = true → r.toInt ≤ (lane (vec s o.a) i).toInt)) ∧
     (∀ e ∈ floatReductions, e.2.1 o.x →
       exec (e.1 o) s = .next (done s (vecSet s o.d
         ((vred (govern s o.p o.x.neg) (vec s o.a) (fleaf (polOf s)) (e.2.2 o.x (polOf s))).setWidth 512)) (lenR o)))) ∧
  (∀ (o : OpR) (s : State), Running s → govern s o.p o.x.neg ≠ 0 → IsVec o.d → IsVec o.a →
     (Plain o → ∃ v, exec (.vscanAddI32 o) s = .next (done s (vecSet s o.d v) (lenR o)) ∧
       ∀ i, i < 16 → lane v i = if (govern s o.p o.x.neg).getLsbD i
         then BitVec.ofNat 32 ((range' 0 (i + 1)).foldl (fun t j =>
           if (govern s o.p o.x.neg).getLsbD j then t + (lane (vec s o.a) j).toNat else t) 0)
         else lane (vec s o.d) i) ∧
     (OkRm o.x → ∃ v, exec (.vscanAddF32 o) s = .next (done s (vecSet s o.d v) (lenR o)) ∧
       ∀ i, i < 16 →
         ((govern s o.p o.x.neg).getLsbD i = false → lane v i = lane (vec s o.d) i) ∧
         ((govern s o.p o.x.neg).getLsbD i = true → (∀ j, j < i → (govern s o.p o.x.neg).getLsbD j = false) →
           lane v i = fleaf (polOf s) (lane (vec s o.a) i)) ∧
         (∀ j, j < i → (govern s o.p o.x.neg).getLsbD i = true → (govern s o.p o.x.neg).getLsbD j = true →
           (∀ k, j < k → k < i → (govern s o.p o.x.neg).getLsbD k = false) →
           lane v i = BitVec.ofNat 32 (fpAdd (rmOf o.x.rm.toNat) (polOf s / 2 * 2) (lane v j).toNat
             (fleaf (polOf s) (lane (vec s o.a) i)).toNat))))

/-- R309-R311: selects, moves of one lane, and permutes. -/
def Obligations.Permutes : Prop :=
  (∀ (o : OpR) (s : State), Running s → Plain o →
    (IsVec o.d → IsVec o.a → IsVec o.b → ∃ v, exec (.vsel o) s = .next (done s (vecSet s o.d v) (lenR o)) ∧
      ∀ i, i < 16 → lane v i = if (pReg s.cx o.p.toNat).getLsbD i != o.x.neg then lane (vec s o.a) i else lane (vec s o.b) i) ∧
    (On s o → IsReg s o.d → IsVec o.a → IsReg s o.b →
      exec (.vextr o) s = .next (done s (regSet s o.d ((lane (vec s o.a) ((reg s o.b).toNat % 16)).setWidth 64)) (lenR o))) ∧
    (On s o → IsVec o.d → IsReg s o.a → IsReg s o.b → ∃ v, exec (.vins o) s = .next (done s (vecSet s o.d v) (lenR o)) ∧
      ∀ i, i < 16 → lane v i = if i = (reg s o.b).toNat % 16 then (reg s o.a).setWidth 32 else lane (vec s o.d) i) ∧
    (govern s o.p o.x.neg ≠ 0 → IsVec o.d →
      (IsReg s o.a → ∃ v, exec (.vbcast o) s = .next (done s (vecSet s o.d v) (lenR o)) ∧
        ∀ i, i < 16 → lane v i = if (govern s o.p o.x.neg).getLsbD i then (reg s o.a).setWidth 32 else lane (vec s o.d) i) ∧
      (IsVec o.a → IsVec o.b → ∃ v, exec (.vperm o) s = .next (done s (vecSet s o.d v) (lenR o)) ∧
        ∀ i, i < 16 → lane v i = if (govern s o.p o.x.neg).getLsbD i
          then lane (vec s o.a) ((lane (vec s o.b) i).toNat % 16) else lane (vec s o.d) i) ∧
      (IsVec o.a → ∃ v, exec (.vcomp o) s = .next (done s (vecSet s o.d v) (lenR o)) ∧
        ∀ i, i < 16 → lane v i = match ((range' 0 16).filter (fun k => (govern s o.p o.x.neg).getLsbD k))[i]? with
          | some k => lane (vec s o.a) k
          | none => 0) ∧
      (IsVec o.a → ∃ v, exec (.vexpd o) s = .next (done s (vecSet s o.d v) (lenR o)) ∧
        ∀ i, i < 16 → lane v i = if (govern s o.p o.x.neg).getLsbD i
          then lane (vec s o.a) ((range' 0 i).filter (fun k => (govern s o.p o.x.neg).getLsbD k)).length
          else lane (vec s o.d) i))) ∧
  (∀ (o : OpR) (s : State), Running s → okXimm o.x = true → govern s o.p o.x.neg ≠ 0 → IsVec o.d → IsVec o.a → IsVec o.b →
    o.x.ximm.toNat % 16 ≤ 5 → o.x.ximm.toNat < 256 → (o.x.ximm.toNat % 16 ≠ 4 → o.x.ximm.toNat < 16) →
    (o.x.ximm.toNat % 16 = 5 → o.b = 0) →
    ∃ v, exec (.vshuf o) s = .next (done s (vecSet s o.d v) (lenR o)) ∧
      ∀ i, i < 16 → lane v i = if (govern s o.p o.x.neg).getLsbD i
        then (let j := shuffled (o.x.ximm.toNat % 16) (o.x.ximm.toNat / 16) i
              if j < 16 then lane (vec s o.a) j else lane (vec s o.b) (j - 16))
        else lane (vec s o.d) i)

/-- R76, R312-R316: conversions, codebooks and indexed weights. Group g of four-bit elements is elements 16g to 16g + 15 in stored
order; KLD copies 16 or 32 bytes and clears the rest. -/
def Obligations.Conversions : Prop :=
  ∀ (o : OpR) (s : State), Running s → IsVec o.a →
    (govern s o.p o.x.neg ≠ 0 → IsVec o.d → o.x.scp = 0 → o.x.ord = 0 → o.x.rm.toNat ≤ 4 → o.x.ximm.toNat < 2 ^ 11 →
      convDst (o.x.ximm.toNat % 16) = true → convSrc (o.x.ximm.toNat / 16 % 16) = true →
      (o.x.ximm.toNat / 16 % 16 ∉ [5, 8, 9] → o.x.ximm.toNat / 256 = 0) →
      ∃ v, exec (.vcvt o) s = .next (done s (vecSet s o.d v) (lenR o)) ∧
        ∀ i, i < 16 → lane v i = if (govern s o.p o.x.neg).getLsbD i
          then cvtLane (o.x.ximm.toNat % 16) (elemEnc (o.x.ximm.toNat % 16) (rmOf o.x.rm.toNat) (polOf s)
            (elemVal (o.x.ximm.toNat / 16 % 16) (polOf s)
              (if o.x.ximm.toNat / 16 % 16 ∈ [5, 8, 9] then nibOf (vec s o.a) (16 * (o.x.ximm.toNat / 256) + i)
               else (lane (vec s o.a) i).toNat % 2 ^ (8 * elemSize (o.x.ximm.toNat / 16 % 16)))))
          else lane (vec s o.d) i) ∧
    (okS o.x = true → On s o → o.d.toNat < 8 →
      exec (.kldE4m3 o) s = .next (done s { s.cx with
        k := setD s.cx.k 0 o.d.toNat (BitVec.ofNat 256 ((vec s o.a).toNat % 2 ^ 128)) } (lenR o)) ∧
      exec (.kldBf16 o) s = .next (done s { s.cx with
        k := setD s.cx.k 0 o.d.toNat (BitVec.ofNat 256 ((vec s o.a).toNat % 2 ^ 256)) } (lenR o))) ∧
    (okXimm o.x = true → o.x.ximm.toNat < 16 → govern s o.p o.x.neg ≠ 0 → IsVec o.d → o.b.toNat < 8 →
      ∃ v, exec (.vlut o) s = .next (done s (vecSet s o.d v) (lenR o)) ∧
        ∀ i, i < 16 → lane v i = if (govern s o.p o.x.neg).getLsbD i
          then (let j := nibOf (vec s o.a) (16 * (o.x.ximm.toNat % 8) + i)
                let kb := (kReg s.cx o.b.toNat).toNat
                BitVec.ofNat 32 (convert
                  (if 8 ≤ o.x.ximm.toNat then decodeFp bf16 (kb / 2 ^ (16 * j) % 2 ^ 16) else decodeFp e4m3 (kb / 2 ^ (8 * j) % 2 ^ 8))
                  fp32 .rne (polOf s / 4 % 2 * 4)))
          else lane (vec s o.d) i) ∧
    (okXimm o.x = true → o.x.ximm.toNat < 32 → govern s o.p o.x.neg ≠ 0 → IsVec o.d → IsReg s o.b →
      ∀ (s1 s2 : State) (e0 e1 : Nat),
      (let word (k : Nat) : Act Nat := if (range' 0 8).any (fun i => (govern s o.p o.x.neg).getLsbD (8 * k + i)) then do
          let ea := reg s o.b + BitVec.ofNat 64 (4 * ((vec s o.a).toNat / 2 ^ (16 * (2 * (o.x.ximm.toNat / 2) + k)) % 2 ^ 16 / 128 % 256))
          let x ← xlAny (o.x.ximm.getLsbD 0) ea .rd 4 false
          let bs ← loadBytes x 4 ea
          pure (natOfBytes bs)
        else pure 0
       Does (word 0) s e0 s1 ∧ Does (word 1) s1 e1 s2) →
      ∃ v, exec (.vqdec o) s = .next (retire { s2 with cx := { s2.cx with v := setD s2.cx.v 0 o.d.toNat v } } (after s (lenR o))) ∧
        ∀ i, i < 16 → lane v i = if (govern s o.p o.x.neg).getLsbD i
          then BitVec.ofNat 32 (convert (halves ((vq2
            ((vec s o.a).toNat / 2 ^ (16 * (2 * (o.x.ximm.toNat / 2) + i / 8)) % 2 ^ 16) (if i < 8 then e0 else e1)).getD (i % 8) 0))
            fp32 .rne 0)
          else lane (vec s2 o.d) i)

/-- R79, Table 3-5: rounding m × 2^e to a multiple of 2^q gives the neighbour that each mode names. R70, R83: a value that a
format represents converts to its own encoding in it, in every rounding mode; a NaN converts to a NaN with its sign and its
fraction, quieted (R82). R307, Table 10-2: the special inputs of the special functions; VEXP2 of integers and VTANH of small and large
values exactly; and of any exact value between the bounds to which a function is known, where these settle them, the value of FP32
next below or next above it, as the core chooses (log 11; where they do not settle, what it gives is free). -/
def Obligations.Rounding : Prop :=
  (∀ (neg : Bool) (m k : Nat) (e : Int),
     roundAt .rtz neg m e false (e + k) = m / 2 ^ k ∧
     roundAt .rdn neg m e false (e + k) = (if neg then (m + 2 ^ k - 1) / 2 ^ k else m / 2 ^ k) ∧
     roundAt .rup neg m e false (e + k) = (if neg then m / 2 ^ k else (m + 2 ^ k - 1) / 2 ^ k) ∧
     roundAt .rna neg m e false (e + k) = (2 * m + 2 ^ k) / 2 ^ (k + 1) ∧
     (2 * m ≤ (2 * roundAt .rne neg m e false (e + k) + 1) * 2 ^ k ∧ 2 * roundAt .rne neg m e false (e + k) * 2 ^ k ≤ 2 * m + 2 ^ k) ∧
     ((2 * m = (2 * roundAt .rne neg m e false (e + k) + 1) * 2 ^ k ∨ 2 * roundAt .rne neg m e false (e + k) * 2 ^ k = 2 * m + 2 ^ k) →
       roundAt .rne neg m e false (e + k) % 2 = 0)) ∧
  (∀ F ∈ [fp32, fp16, bf16, e4m3, e5m2, fp4], ∀ (x : Nat) (rm : Rm), x < 2 ^ F.w →
     ((∃ n m e, decodeFp F x = .fin n m e false) → convert (decodeFp F x) F rm 0 = x) ∧
     ((decodeFp F x).isNan = true → F ≠ e4m3 → convert (decodeFp F x) F rm 0 = Nat.lor x (2 ^ (F.f - 1)))) ∧
  (∀ (pol : Nat) (rm : Rm) (raw : W32), pol < 16 →
     (∀ p ∈ [(0, 0x7F800000), (0x80000000, 0xFF800000), (0x7F800000, 0), (0xFF800000, 0x80000000), (0x3F800000, 0x3F800000)],
       convert (fvRcp (flush fp32 pol p.1)) fp32 rm pol = p.2) ∧
     (∀ p ∈ [(0, 0x7F800000), (0x80000000, 0xFF800000), (0x7F800000, 0), (0xFF800000, 0x7FC00000), (0x3F800000, 0x3F800000)],
       convert (fvRsq (flush fp32 pol p.1)) fp32 rm pol = p.2) ∧
     (∀ p ∈ [(0, 0), (0x80000000, 0x80000000), (0x7F800000, 0x7F800000), (0xFF800000, 0x7FC00000), (0x3F800000, 0x3F800000)],
       convert (fvSqrt (flush fp32 pol p.1)) fp32 rm pol = p.2) ∧
     (∀ p ∈ [(0, 0x3F800000), (0x80000000, 0x3F800000), (0x7F800000, 0x7F800000), (0xFF800000, 0), (0x3F800000, 0x40000000)],
       fpExp2 raw (flush fp32 pol p.1) pol = p.2) ∧
     (∀ p ∈ [(0, 0xFF800000), (0x80000000, 0xFF800000), (0x7F800000, 0x7F800000), (0xFF800000, 0x7FC00000), (0x3F800000, 0)],
       fpLog2 raw (flush fp32 pol p.1) pol = p.2) ∧
     (∀ p ∈ [(0, 0), (0x80000000, 0x80000000), (0x7F800000, 0x3F800000), (0xFF800000, 0xBF800000)],
       fpTanh raw (flush fp32 pol p.1) pol = p.2) ∧
     (∀ a, a < 2 ^ 32 →
       (2 ^ 31 + 2 ^ 23 ≤ a → a < 0xFF800000 → convert (fvRsq (flush fp32 pol a)) fp32 rm pol = 0x7FC00000 ∧
         convert (fvSqrt (flush fp32 pol a)) fp32 rm pol = 0x7FC00000 ∧ fpLog2 raw (flush fp32 pol a) pol = 0x7FC00000) ∧
       (0x41100000 ≤ a % 2 ^ 31 → a % 2 ^ 31 < 0x7F800000 → fpTanh raw (flush fp32 pol a) pol = a / 2 ^ 31 * 2 ^ 31 + 0x3F800000) ∧
       (2 ^ 23 ≤ a % 2 ^ 31 → a % 2 ^ 31 < 0x39800000 → fpTanh raw (flush fp32 pol a) pol = a)) ∧
     (∀ (n : Bool) (m k : Nat), m ≠ 0 → ∀ i : Int, i = (if n then -(m : Int) else m) →
       (-126 ≤ i → i ≤ 127 → fpExp2 raw (.fin n (m * 2 ^ k) (-k) false) pol = (i + 127).toNat * 2 ^ 23) ∧
       (-149 ≤ i → i < -126 → pol / 2 % 2 = 0 → fpExp2 raw (.fin n (m * 2 ^ k) (-k) false) pol = 2 ^ (i + 149).toNat) ∧
       (128 ≤ i → fpExp2 raw (.fin n (m * 2 ^ k) (-k) false) pol = 0x7F800000))) ∧
  (∀ (tag : Nat) (raw : W32) (neg up : Bool) (lo hi m k : Nat) (e : Int) (pol : Nat),
     lo * 2 ^ k < m → m ≤ hi * 2 ^ k →
     convert (.fin neg lo e true) fp32 (if up then .rup else .rdn) 0 = convert (.fin neg hi e false) fp32 (if up then .rup else .rdn) 0 →
     bracket tag raw neg lo hi e up pol = convert (.fin neg m (e - k) false) fp32 (if up then .rup else .rdn) (pol % 4))

/-- R285, R288, R294-R296: QBIND and QBINDC bind a port anew and free what it had; QFREE leaves it unbound and the tokens not
taken with their channel, and a later QBINDC of the channel goes on with its stream; QSEEK and QSKIP move a pattern's position, QSKIP
sends SKIP on a channel. R237-R239, R286, R290, R292,
R293: a pop of an input pattern takes its next element and widens it; an exhausted binding gives zero and sets EOS; a push
stores the narrowed value at the next element; QSTAT and QPEEK take nothing; QEMIT emits a stop or DONE. That a misaligned QBIND leaves the
port unbound, that AVAIL of a channel with DONE at its head is 0, and that QSEEK clears EOS against Table 8-4's words are the model's
readings (log 30). -/
def Obligations.Streams : Prop :=
  (∀ (o : OpR) (s : State), Running s → Plain o → On s o →
     (isQ o.d = true → IsReg s o.a → (reg s o.a).toNat % 32 = 0 → ∀ (bs : List Byte) (s1 s2 : State),
       Does (loadWhole false (reg s o.a) 32) s bs s1 → patBad (BitVec.ofNat 256 (natOfBytes bs)) = false →
       Does (freePort (portNo o.d)) s1 () s2 →
       exec (.qbind o) s = .next (retire { s2 with cx := { s2.cx with
         ports := put s2.cx.ports (portNo o.d) { Port.free with bind := .pattern (BitVec.ofNat 256 (natOfBytes bs)) } } }
         (after s (lenR o)))) ∧
     (isQ o.d = true → IsReg s o.a → (reg s o.a).toNat % 32 ≠ 0 → ∀ s1, Does (freePort (portNo o.d)) s () s1 →
       exec (.qbind o) s = .next (takeTrap (undoPorts s s1)
         { f := { faultAt cQBIND 0 with port := some (portNo o.d), pos := some (0, 0, 0) }, pc := s.cx.pc, ir := s.cx.ir })) ∧
     (isQ o.d = true → IsReg s o.a → ∀ s1, Does (freePort (portNo o.d)) s () s1 →
       let e := reg s o.a
       let key := 16 * coreSite s (coreOf s.cur) + e.toNat % 16
       let cfg := (endpAt s key).cfg
       epBad s.cx (portNo o.d) e = false → cfg.testBit 0 = true → cfg.testBit 1 = e.getLsbD 4 → e.toNat / 32 % 4 = cfg / 4 % 4 →
       ((endpAt s key).bound = none ∨ (endpAt s key).bound = some (s.cur, portNo o.d)) →
       (cfg.testBit 1 = true → mordTokenOk (mordant s (key / 16) (cfg / 16 % 2) (cfg / 32 % 16))
         (if 2 ≤ cfg / 4 % 4 then some (e.toNat / 256 % 16) else none) (cfg / 4 % 4 == 3) = true) →
       exec (.qbindc o) s = .next (retire
         (let t := updEndp { s1 with cx := { s1.cx with held := s1.cx.held.filter (fun h => match h with
            | .toks k _ => decide (k ≠ key)
            | _ => true) } } key (fun x => { x with bound := some (s1.cur, portNo o.d), last := none })
          { t with cx := { t.cx with ports := put t.cx.ports (portNo o.d) { Port.free with
            bind := .channel e key
            last := if e.getLsbD 4 then none else (endpAt s1 key).last
            hold := s1.cx.held.flatMap (fun h => match h with
              | .toks k ts => if k = key then ts else []
              | _ => []) } } })
         (after s (lenR o)))) ∧
     (isQ o.d = true → ∀ s1, Does (freePort (portNo o.d)) s () s1 → exec (.qfree o) s = .next (retire s1 (after s (lenR o)))) ∧
     (∀ n d, (portAt s.cx n).bind = .pattern d → Does (freePort n) s () { s with cx := { s.cx with ports := del s.cx.ports n } }) ∧
     (∀ n w key, (portAt s.cx n).bind = .channel w key → (portAt s.cx n).hold = [] → ∃ t, Does (freePort n) s () t ∧
       t.cx = { s.cx with ports := del s.cx.ports n } ∧ (endpAt t key).bound = none ∧
       (endpAt t key).buf = (endpAt s key).buf ∧ (endpAt t key).kept = (portAt s.cx n).ahead.map vecTok ++ (endpAt s key).kept ∧
       (endpAt t key).last = if (portAt s.cx n).done then none else (portAt s.cx n).last) ∧
     (isQ o.a = true → IsReg s o.b → ∀ d, (portAt s.cx (portNo o.a)).bind = .pattern d →
       exec (.qseek o) s = .next (done s (portSet s.cx (portNo o.a)
           { portAt s.cx (portNo o.a) with
           pos := (reg s o.b).toNat, ahead := [], eos := (portAt s.cx (portNo o.a)).eos && decide (patCount d ≤ (reg s o.b).toNat) })
         (lenR o)) ∧
       (d.getLsbD 192 = false → exec (.qskip o) s = .next (done s (portSet s.cx (portNo o.a)
           { portAt s.cx (portNo o.a) with pos := (portAt s.cx (portNo o.a)).pos + (reg s o.b).toNat, ahead := [] }) (lenR o)))) ∧
     (isQ o.a = true → IsReg s o.b → ∀ w key, (portAt s.cx (portNo o.a)).bind = .channel w key →
       exec (.qseek o) s = .next (trapped s { faultAt cQFAULT 0 with
         port := some (portNo o.a), pos := some ((portAt s.cx (portNo o.a)).pos % 2 ^ 32, 0, 0) }) ∧
       (w.getLsbD 4 = false → ∀ t, t = sendSkip s (.endp key) ((reg s o.b).setWidth 32) →
         exec (.qskip o) s = .next (retire { t with cx := (portSet t.cx (portNo o.a)
           { portAt t.cx (portNo o.a) with thr := some (match (portAt t.cx (portNo o.a)).thr with
               | some x => if x.toNat < (reg s o.b).toNat % 2 ^ 32 then (reg s o.b).setWidth 32 else x
               | none => (reg s o.b).setWidth 32) }) } (after s (lenR o)))))) ∧
  (∀ (o : OpR) (s : State), Running s → Plain o → On s o →
     (∀ (x : BitVec 6) (d : BitVec 256), isQ x = true → (portAt s.cx (portNo x)).bind = .pattern d → d.getLsbD 194 = false →
       (portAt s.cx (portNo x)).ahead = [] →
       (d.getLsbD 192 = false → patCount d ≤ (portAt s.cx (portNo x)).pos →
         Does (rdG x) s 0 { s with cx := (portSet s.cx (portNo x)
           { portAt s.cx (portNo x) with eos := true }) }) ∧
       (d.getLsbD 192 = false → (portAt s.cx (portNo x)).pos < patCount d → ∀ (v : Vec) (s1 : State),
         Does (patRead (portNo x) d (portAt s.cx (portNo x)).pos) s v s1 → s1.cx.ports = s.cx.ports →
         Does (rdG x) s (widen (db d 203 200) (d.getLsbD 196) (d.getLsbD 195) (polOf s) v.toNat)
           { s1 with cx := (portSet s1.cx (portNo x)
           { portAt s.cx (portNo x) with
               popped := (portAt s.cx (portNo x)).popped ++ [v], pos := (portAt s.cx (portNo x)).pos + 1
               cnt := (portAt s.cx (portNo x)).cnt + 1 }) }) ∧
       (d.getLsbD 192 = true → (portAt s.cx (portNo x)).pos < patCount d → ∀ (v : W64) (s1 : State),
         Does (do
           let y ← patXl d (portAt s.cx (portNo x)).pos .wr
           storeBytes y.va y.loc (bytesOfNat (patSize d) (narrow (db d 203 200) (d.getLsbD 196) (polOf s) v.toNat)) none y.o) s () s1 →
         Does (wrG x v) s () { s1 with cx := (portSet s1.cx (portNo x)
           { portAt s1.cx (portNo x) with pos := (portAt s1.cx (portNo x)).pos + 1, cnt := (portAt s1.cx (portNo x)).cnt + 1 }) })) ∧
     (isQ o.a = true → IsReg s o.d →
       ((portAt s.cx (portNo o.a)).bind = .unbound → exec (.qstat o) s = .next (done s (regSet s o.d 0) (lenR o))) ∧
       ((portAt s.cx (portNo o.a)).bind ≠ .unbound → ∃ v : W64, exec (.qstat o) s = .next (done s (regSet s o.d v) (lenR o)) ∧
         v.getLsbD 0 = true ∧ v.getLsbD 1 = portOut (portAt s.cx (portNo o.a)) ∧ v.getLsbD 4 = (portAt s.cx (portNo o.a)).eos ∧
         v.toNat / 2 ^ 16 % 256 = min (availOf s (portAt s.cx (portNo o.a))) 255 ∧
         v.toNat / 2 ^ 24 % 256 = min (portAt s.cx (portNo o.a)).debt 255 ∧
         v.toNat / 2 ^ 32 = min (portAt s.cx (portNo o.a)).cnt (2 ^ 32 - 1)) ∧
       (∀ (v : W64) (s1 : State), Does (peekPort (portNo o.a)) s v s1 →
         exec (.qpeek o) s = .next (retire { s1 with cx := setG s1.cx o.d.toNat v } (after s (lenR o)))) ∧
       (∀ d, (portAt s.cx (portNo o.a)).bind = .pattern d → d.getLsbD 192 = false → d.getLsbD 194 = false →
         (portAt s.cx (portNo o.a)).ahead = [] → patCount d ≤ (portAt s.cx (portNo o.a)).pos →
         Does (peekPort (portNo o.a)) s 0xF00000000 s)) ∧
     (isQ o.d = true → 8 ≤ o.b.toNat → o.b.toNat < 16 → ∀ w key, (portAt s.cx (portNo o.d)).bind = .channel w key →
       w.getLsbD 4 = true →
       ((portAt s.cx (portNo o.d)).done = true → exec (.qemit o) s = .next (done s (portSet s.cx (portNo o.d)
           { portAt s.cx (portNo o.d) with eos := true }) (lenR o))) ∧
       ((portAt s.cx (portNo o.d)).done = false → ∀ s1 s2, Does (chanRoom (portNo o.d) key) s () s1 →
         Does (emitTok (portNo o.d) key { tag := BitVec.ofNat 4 o.b.toNat, data := 0 }) s1 () s2 →
         exec (.qemit o) s = .next (retire s2 (after s (lenR o))))))

/-! ## Tasks, synchronisation and commands -/

/-- R174, R320, R408: a spawn reads its record, publishes, and hands the record to the Dispatcher, with b as the timestamp; a
timestamp task spawns at once into its own domain, and holds a spawn into another until it commits. A record that fails a
check traps with CFG_BAD, and a timestamp below the parent's with TS_ORDER. R208, R217: a launch's tasks take consecutive
sequence numbers of their domain in traversal order, one for each point of the grid. -/
def Obligations.Spawns : Prop :=
  (∀ e ∈ [((Instr.tspawn : OpR → Instr), false), (.tspawng, true)], ∀ (o : OpR) (s s1 : State) (p : BitVec 512) (t : Task),
     Running s → okSScp o.x = true → On s o → IsReg s o.a → IsReg s o.b →
     Does (readPacket (o.x.ximm == 1) (reg s o.a)) s p s1 → s1.cx.task = some t →
     (spawnBad s1 p e.2 = true → exec (e.1 o) s = .next (trapped s (faultAt cCFGBAD (reg s o.a)))) ∧
     (spawnBad s1 p e.2 = false → isTs s1 s1.cx = true → t.tid.dom = pkDom p → (reg s o.b).toNat < t.tid.ts.toNat →
       exec (e.1 o) s = .next (trapped s (faultAt cTSORDER (reg s o.a)))) ∧
     (spawnBad s1 p e.2 = false → isTs s1 s1.cx = true → t.tid.dom ≠ pkDom p → t.dropFirst ≤ t.issued →
       exec (e.1 o) s = .next (retire (issuedOne (heldOne s1
         (.spawn p (reg s o.b) (if o.x.scp = 0 then pk p 24 22 else o.x.scp.toNat - 1) e.2))) (after s (lenR o)))) ∧
     (∀ s2, spawnBad s1 p e.2 = false → (isTs s1 s1.cx = true → t.tid.dom = pkDom p ∧ t.tid.ts.toNat ≤ (reg s o.b).toNat) →
       spillFull s1 (cidDie s1.cur) = false → t.dropFirst ≤ t.issued →
       Does release s1 () s2 →
       exec (e.1 o) s = .next (retire (issuedOne (launchSpawn s2 s2.cur t.tid.dom p (reg s o.b)
         (if o.x.scp = 0 then pk p 24 22 else o.x.scp.toNat - 1) (if isTs s1 s1.cx then some t.tid else none) (isTs s1 s1.cx) e.2))
         (after s (lenR o))))) ∧
  (∀ (s : State) (p : BitVec 512) (ts : W64) (csc : Nat) (parent : Option Tid) (super gang : Bool) (entry : W64),
     let r := accept s p ts csc parent super gang entry
     r.1.todo.length = (traversal p).length ∧
     (∀ i, i < (traversal p).length → ∃ q, r.1.todo[i]? = some q ∧ (traversal p)[i]? = some (q.1, q.2.1) ∧
       q.2.2 = (domainAt s (pkDom p)).next + BitVec.ofNat 32 i) ∧
     (domainAt r.2 (pkDom p)).next = (domainAt s (pkDom p)).next + BitVec.ofNat 32 (traversal p).length ∧
     r.2.live.length = s.live.length + (traversal p).length ∧ r.2.mem = s.mem)

/-- R175, R265, R321, R322: TEND performs the posted atomics and ends the task at its completion scope, or the instruction's, where
every request of its stores to host memory is made (R414; where one is not, the task does not end and traps, log 36); RET
in the first frame is TEND; with 16 ended tasks on its core a timestamp task that is not the frontier task waits at its end (the model's
choice, log 46); TABORT drops what is not published. Publication is one step (log 9); posted atomics on their way are performed
when a task leaves (log 14). -/
def Obligations.EndsOfTasks : Prop :=
  ∀ (o : OpR) (s : State) (t : Task), Running s → On s o → s.cx.task = some t →
    (okScp o.x = true → ¬ Crowded s → (drainAll s s.cur).cx.trapNext = [] → Publishes (drainAll s s.cur) →
      ((if o.x.scp = 0 then t.csc else o.x.scp.toNat - 1) = 4 → isTs s s.cx = true ∨ (dev s 0x100900).testBit 0 = false) →
      exec (.tend o) s = .next (endTask (drainAll s s.cur) s.cur (if o.x.scp = 0 then t.csc else o.x.scp.toNat - 1))) ∧
    (okScp o.x = true → Crowded s → exec (.tend o) s = .next (enterWait (undoPorts s s) (.idle (s.cycle + 1)))) ∧
    (okScp o.x = true → ¬ Crowded s → (drainAll s s.cur).cx.trapNext = [] → ¬ Publishes (drainAll s s.cur) →
      (if o.x.scp = 0 then t.csc else o.x.scp.toNat - 1) < 4 →
      (publishCtx (drainAll s s.cur) s.cur).cx.trapNext ≠ [] →
      exec (.tend o) s = .next (enterWait (undoPorts s (publishCtx (drainAll s s.cur) s.cur))
        (.idle ((publishCtx (drainAll s s.cur) s.cur).cycle + 1)))) ∧
    (Plain o → s.cx.fb = 0 → t.csc < 4 → ¬ Crowded s → (drainAll s s.cur).cx.trapNext = [] → Publishes (drainAll s s.cur) →
      exec (.ret o) s = .next (endTask (drainAll s s.cur) s.cur t.csc)) ∧
    (Plain o → exec (.tabort o) s = .next (abortSelf s s.cur)) ∧
    (domTs s t.tid.dom = false → (ctxOf s s.cur).task = some t → (ctxOf s s.cur).group = none →
      abortSelf s s.cur = { freeHome (freeCtx s s.cur) t s.cur with
        live := (freeHome (freeCtx s s.cur) t s.cur).live.filter (fun l => l.task.tid ≠ t.tid) })

/-- R323-R327: a future is resolved once; a registration on it is linked before those already there, or fires at once; one more than
16,383 faults CFG_BAD. Its resolution fires its waiters with the value, one after the other along the list. FUTRES, FUTREG and FUTJOIN act
at the frontier, check their objects, release at their scope, and act at the future's home; a second resolution faults FUT_DOUBLE.
Registrations and firings take their turns at port M (R41). That FUTJOIN writes its counter cell as the 8 bytes from byte 56 of the block
is the model's reading (log 31). -/
def Obligations.Futures : Prop :=
  (∀ (o : OpR) (s s1 s2 : State) (f : Nat), Running s → okScp o.x = true → On s o → Free s → IsReg s o.a → IsReg s o.b →
    Does (object (reg s o.a) 8 true) s f s1 → Does (releaseAt (scopeOf o.x 4)) s1 () s2 →
    (∀ t, futResolve s2 f (reg s o.b).toNat = .ok t → exec (.futres o) s = .next (retire t (after s (lenR o)))) ∧
    (word8 s2 f % 4 = 2 → exec (.futres o) s = .next (trapped s (faultAt cFUTDOUBLE (reg s o.a))))) ∧
  (∀ (o : OpR) (s s1 s2 s3 t : State) (c f : Nat), Running s → okScp o.x = true → On s o → Free s → IsReg s o.a → IsReg s o.b →
    Does (object (reg s o.b) 64 false) s c s1 → Does (object (reg s o.a) 8 true) s1 f s2 → Does (releaseAt (scopeOf o.x 4)) s2 () s3 →
    futRegister s3 f (c + 48) c 0 = .ok t → exec (.futreg o) s = .next (retire t (after s (lenR o)))) ∧
  (∀ (o : OpR) (s s0 s1 s2 u : State) (j : Nat), Running s → okScp o.x = true → govern s o.p o.x.neg ≠ 0 → Free s → IsReg s o.a →
    IsVec o.b → joinBlock s (reg s o.a) s.cx.mode = .ok j →
    Does ((range' 0 5).forM (fun i => noteOrdered { va := reg s o.a, t := 0, pa := j, loc := j + 64 * i, c := false
                                                    o := (srgn s (j + 64 * i)).1, p := false, hp := false } true)) s () s0 →
    (isTs s s.cx = false → s0 = s) → Does (releaseAt (scopeOf o.x 4)) s0 () s1 →
    u = (range' 0 5).foldl (fun s i => publishWord s s.cur (j + 64 * i) 64) (portTurn s1 false j) →
    Does (((range' 0 16).filter (fun i => (govern s o.p o.x.neg).getLsbD i)).forM (fun m => atLane m (do
      let f ← object ((lane (vec s o.b) m).setWidth 64) 8 true
      atHome ((lane (vec s o.b) m).setWidth 64) (fun s => futRegister s f (j + 64 + 16 * m) j 1))))
      (homeWrite u (j + 56) (bytesOfNat 2 ((range' 0 16).filter (fun i => (govern s o.p o.x.neg).getLsbD i)).length ++
        [0, 0, 0, 0, 2, 0])) () s2 →
    exec (.futjoin o) s = .next (retire s2 (after s (lenR o)))) ∧
  (∀ (s u : State) (f v c own kind : Nat), u = portTurn (portTurn s false f) false c →
    (word8 s f % 4 = 0 → futResolve s f v = .ok (homeWrite s f (bytesOfNat 8 (2 + 2 ^ 16 * (v % 2 ^ 48))))) ∧
    (word8 s f % 4 = 2 → futResolve s f v = .error cFUTDOUBLE) ∧
    (word8 s f % 4 = 3 → futResolve s f v = .error cCFGBAD) ∧
    (word8 s f % 4 = 1 → futResolve s f v = .ok (fireList 16384 (homeWrite s f (bytesOfNat 8 (2 + 2 ^ 16 * (v % 2 ^ 48))))
      (word8 s f / 2 ^ 16 % 2 ^ 32) (v % 2 ^ 48))) ∧
    (∀ n, fireList n s 0xFFFFFFFF v = s ∧ (c ≠ 0xFFFFFFFF → ∀ t, t = portTurn s false c → fireList (n + 1) s c v =
      fireList n (fire (homeWrite t (c + 8) (bytesOfNat 6 v)) c) (natOfBytes (homeRead t c 4).1) v)) ∧
    (word8 u f % 4 = 3 → futRegister s f c own kind = .error cCFGBAD) ∧
    (word8 u f % 4 = 0 → futRegister s f c own kind = .ok (homeWrite (homeWrite u c
      (bytesOfNat 4 0xFFFFFFFF ++ bytesOfNat 4 own ++ bytesOfNat 6 0 ++ bytesOfNat 1 kind ++ [0])) f
      (bytesOfNat 8 (1 + 4 + 2 ^ 16 * c)))) ∧
    (word8 u f % 4 = 1 → word8 u f / 4 % 2 ^ 14 = 16383 → futRegister s f c own kind = .error cCFGBAD) ∧
    (word8 u f % 4 = 1 → word8 u f / 4 % 2 ^ 14 ≠ 16383 → futRegister s f c own kind = .ok (homeWrite (homeWrite u c
      (bytesOfNat 4 (word8 u f / 2 ^ 16 % 2 ^ 32) ++ bytesOfNat 4 own ++ bytesOfNat 6 0 ++ bytesOfNat 1 kind ++ [0])) f
      (bytesOfNat 8 (1 + 4 * (word8 u f / 4 % 2 ^ 14 + 1) + 2 ^ 16 * c)))) ∧
    (word8 u f % 4 = 2 → futRegister s f c own kind = .ok (fire (homeWrite u c
      (bytesOfNat 4 0xFFFFFFFF ++ bytesOfNat 4 own ++ bytesOfNat 6 (word8 u f / 2 ^ 16 % 2 ^ 48) ++ bytesOfNat 1 kind ++ [0])) c)))

/-- R328, R329: GJOIN makes the task a member, GARR an arrived one, which flips the phase with the last member, GLEAVE ends
membership; GWAIT acquires once the phase is not the one that b names, and else waits. R143, R145, R330: BARINIT writes the
object; BARARR and BAREXP update it and give the phase they read, which flips where no arrival and no byte is awaited; BARWAIT
acquires once the phase is not b's, and else waits. R139, R140, R142, R331: RAWAIT and RPOLL of a ring with a filled slot give
its address and acquire; with none RAWAIT waits and RPOLL gives 0; RREL advances RP, or faults RING_UNDER where no slot is
filled. GWAIT, BARWAIT, RAWAIT and RPOLL read their object as a load of the task does (R62). Where a ring reaches past the end of S-space,
its slots go on from 0, the model's choice (log 54). -/
def Obligations.GroupsBarriersRings : Prop :=
  (∀ (o : OpR) (s s1 : State) (a m v c : Nat) (ph : Bool), Running s → On s o → IsReg s o.a →
     Does (groupObj (reg s o.a)) s (a, m, v, ph, c) s1 →
     (Plain o → Free s → s1.cx.group = none → m ≠ 65535 →
       exec (.gjoin o) s = .next (retire (let t := setGroup s1 a (m + 1) v ph
         { t with cx := { t.cx with group := some (a, none) } }) (after s (lenR o)))) ∧
     (Plain o → Free s → (s1.cx.group.isSome = true ∨ m = 65535) → exec (.gjoin o) s =
       .next (trapped s (faultAt cCFGBAD (reg s o.a)))) ∧
     (okScp o.x = true → Free s → ∀ ar s2, s1.cx.group = some (a, ar) → Does (releaseAt (scopeOf o.x 4)) s1 () s2 →
       exec (.gleave o) s = .next (retire (let t := groupLeave s2 a ar
         { t with cx := { t.cx with group := none } }) (after s (lenR o))) ∧
       (ar ≠ some ph → IsReg s o.d → s.cx.got = none → exec (.garr o) s = .next (retire
         (let t := groupFlip s2 a m (v + 1) ph c
          { t with cx := setG { t.cx with group := some (a, some ph) } o.d.toNat (if ph then 1 else 0) }) (after s (lenR o))))) ∧
     ((v + 1 = m → c = 0xFFFFFFFF → groupFlip s1 a m (v + 1) ph c = setGroup s1 a m 0 (!ph)) ∧
      (v + 1 ≠ m → groupFlip s1 a m (v + 1) ph c = setGroup s1 a m (v + 1) ph))) ∧
  (∀ (o : OpR) (s s1 : State) (a m v c : Nat) (ph : Bool) (bs : List Byte), Running s → On s o → IsReg s o.a → IsReg s o.b →
     okScp o.x = true → Does (objectRead (reg s o.a) 16) s (a, bs) s1 → groupOf bs = some (m, v, ph, c) →
     (ph ≠ (reg s o.b).getLsbD 0 → ∀ s2, Does (acquire (scopeOf o.x 4)) s1 () s2 →
       exec (.gwait o) s = .next (retire s2 (after s (lenR o)))) ∧
     (ph = (reg s o.b).getLsbD 0 → s1.cx.got = none →
       exec (.gwait o) s = .next (enterWait (undoPorts s s1) (.group a ph)))) ∧
  ((∀ (o : OpR) (s s1 : State) (a : Nat), Running s → On s o → IsReg s o.a →
     (Plain o → Free s → IsReg s o.b → Does (object (reg s o.a) 16 false) s a s1 → (reg s o.b).toNat / 2 ^ 17 % 2 ^ 15 = 0 →
       ((reg s o.b).toNat % 2 ^ 16 ≠ 0 ∨ (reg s o.b).toNat / 2 ^ 32 ≠ 0) →
       exec (.barinit o) s = .next (retire (homeWrite s1 a (bytesOfNat 16
         ((reg s o.b).toNat % 2 ^ 16 * (1 + 2 ^ 16) + (reg s o.b).toNat / 2 ^ 32 * (2 ^ 32 + 2 ^ 64) +
           (reg s o.b).toNat / 2 ^ 16 % 2 * 2 ^ 96))) (after s (lenR o)))) ∧
     (okScp o.x = true → Free s → IsReg s o.d → s.cx.got = none → Does (object (reg s o.a) 16 true) s a s1 → ∀ s2 ph t,
       Does (releaseAt (scopeOf o.x 4)) s1 () s2 → barUpdate s2 a 1 0 = .ok (ph, t) →
       exec (.bararr o) s = .next (retire (wrote t o.d (if ph then 1 else 0)) (after s (lenR o)))) ∧
     (Plain o → Free s → IsReg s o.d → IsReg s o.b → s.cx.got = none → Does (object (reg s o.a) 16 true) s a s1 → ∀ ph t,
       0 < (reg s o.b).toNat → (reg s o.b).toNat < 2 ^ 31 → barUpdate s1 a 0 (reg s o.b).toNat = .ok (ph, t) →
       exec (.barexp o) s = .next (retire (wrote t o.d (if ph then 1 else 0)) (after s (lenR o)))) ∧
     (∀ bs, okScp o.x = true → IsReg s o.b → Does (objectRead (reg s o.a) 16) s (a, bs) s1 →
       (∀ s2, (natOfBytes bs).testBit 96 ≠ (reg s o.b).getLsbD 0 → Does (acquire (scopeOf o.x 4)) s1 () s2 →
         exec (.barwait o) s = .next (retire s2 (after s (lenR o)))) ∧
       ((natOfBytes bs).testBit 96 = (reg s o.b).getLsbD 0 → s1.cx.got = none →
         exec (.barwait o) s = .next (enterWait (undoPorts s s1) (.barrier a ((reg s o.b).getLsbD 0)))))) ∧
   (∀ (s : State) (a arr parr earr pb rb : Nat) (ph : Bool), parr < 2 ^ 16 → earr < 2 ^ 16 → pb < 2 ^ 31 → rb < 2 ^ 31 → arr ≤ parr →
     natOfBytes (homeRead s a 16).1 =
       parr + 2 ^ 16 * earr + 2 ^ 32 * pb + 2 ^ 64 * rb + (if ph then 2 ^ 96 else 0) →
     barUpdate s a arr 0 = .ok (ph, homeWrite s a (bytesOfNat 16 (if parr = arr ∧ pb = 0
       then earr + 2 ^ 16 * earr + 2 ^ 32 * rb + 2 ^ 64 * rb + (if ph then 0 else 2 ^ 96)
       else parr - arr + 2 ^ 16 * earr + 2 ^ 32 * pb + 2 ^ 64 * rb + (if ph then 2 ^ 96 else 0)))))) ∧
  (∀ (o : OpR) (s s1 : State) (a : Nat) (r : Ring), Running s → On s o → IsReg s o.a → Does (ringRead (reg s o.a)) s (a, r) s1 →
     (okScp o.x = true → IsReg s o.d → r.wp ≠ r.rp → ∀ s2, Does (acquire (scopeOf o.x 4)) s1 () s2 →
       exec (.rawait o) s = .next (retire (wrote s2 o.d (BitVec.ofNat 64 ((r.base + r.size * (r.rp.toNat % 2 ^ r.lg)) % 2 ^ 32))) (after s (lenR o))) ∧
       exec (.rpoll o) s = .next (retire (wrote s2 o.d (BitVec.ofNat 64 (2 ^ 32 + (r.base + r.size * (r.rp.toNat % 2 ^ r.lg)) % 2 ^ 32))) (after s (lenR o)))) ∧
     (okScp o.x = true → IsReg s o.d → r.wp = r.rp →
       exec (.rawait o) s = .next (enterWait (undoPorts s s1) (.ring a)) ∧
       exec (.rpoll o) s = .next (retire (wrote s1 o.d 0) (after s (lenR o))))) ∧
  (∀ (o : OpR) (s s1 : State) (a : Nat) (r : Ring), Running s → On s o → IsReg s o.a → Does (ringObj (reg s o.a)) s (a, r) s1 →
     (Plain o → Free s → r.wp ≠ r.rp →
       exec (.rrel o) s = .next (retire (homeWrite s1 (a + 16) (bytesOfNat 4 ((r.rp.toNat + 1) % 2 ^ 32))) (after s (lenR o)))) ∧
     (Plain o → Free s → r.wp = r.rp →
       exec (.rrel o) s = .next (trapped s (faultAt cRINGUNDER (reg s o.a)))))

/-- R209, R223, R335-R338: commands to the fabric and the cancel: a timestamp task holds them until it commits; a free task's
earlier stores are published and the command takes effect, traps with the fault it meets, or waits until it can. That MXOP is taken at
every matrix cell of the region of a graph in place, and refused at the cell where it has no effect, is the model's reading (log 34). -/
def Obligations.FabricCommands : Prop :=
  (∀ c ∈ commands, ∀ (o : OpR) (s : State), Running s → Plain o → On s o → IsReg s o.a → IsReg s o.b → Counts s →
    c.ok s (reg s o.a) (reg s o.b) →
    (isTs s s.cx = true →
      exec (c.ctor o) s = .next (retire (issuedOne (heldOne s (c.held s (reg s o.a) (reg s o.b)))) (after s (lenR o)))) ∧
    (∀ s1, isTs s s.cx = false → Does release s () s1 →
      (∀ t, c.run s1 (reg s o.a) (reg s o.b) = .ok t → exec (c.ctor o) s = .next (retire (issuedOne t) (after s (lenR o)))) ∧
      (∀ f, c.run s1 (reg s o.a) (reg s o.b) = .bad f → exec (c.ctor o) s = .next (trapped s f)) ∧
      (c.run s1 (reg s o.a) (reg s o.b) = .later → exec (c.ctor o) s = .next (enterWait (undoPorts s s1) (.idle (s1.cycle + 1)))))) ∧
  (∀ (o : OpR) (s : State), Running s → Plain o → On s o → IsReg s o.a → IsReg s o.b → Counts s →
    IsBase (reg s o.a) → siteKind s ((reg s o.a).toNat / 2 ^ 30) ((reg s o.a).toNat / 2 ^ 18 % 2 ^ 12) = 0xA → (reg s o.b).toNat % 16 ≤ 2 → (reg s o.b).toNat / 2 ^ 11 % 2 ^ 21 = 0 →
    (isTs s s.cx = true → exec (.mxop o) s = .next (retire
      (let t := issuedOne (heldOne s (.mxop (reg s o.a) (reg s o.b) s.cx.mode)); { t with cx := exposedCtx t.cx }) (after s (lenR o)))) ∧
    (∀ s1, isTs s s.cx = false → Does release s () s1 → cfgDone s1 s1.cur = true →
      (graphAt s1 (siteKey (reg s o.a).toNat)).isSome = true → (cellAt s1 (siteKey (reg s o.a).toNat)).cmds.length < 8 →
      exec (.mxop o) s = .next (retire (let t := issuedOne (updCell s1 (siteKey (reg s o.a).toNat) (fun c =>
          { c with cmds := c.cmds ++ [{ cmd := reg s o.b, super := s1.cx.mode }] }))
        { t with cx := exposedCtx t.cx }) (after s (lenR o)))))

/-- R128, R332: CPY and CPYF read their packet and hand it to an engine of the core's cluster, or trap with the cause of its
refusal; CPYF takes its field values from b. A timestamp task holds the command. R123, R333, R334: CPYQ claims a slot of a
served queue, writes the packet there and gives the slot's index, or all ones in a timestamp task, which holds it; it waits while the
engine has the queue still to translate (R29, R32); MSEND reads a record and its payload and sends them. -/
def Obligations.CopiesAndMessages : Prop :=
  (∀ e ∈ [((Instr.cpy : OpR → Instr), false), (.cpyf, true)], ∀ (o : OpR) (s s1 : State) (p0 p : BitVec 512),
     Running s → okS o.x = true → On s o → IsReg s o.a → (e.2 = true → IsReg s o.b) →
     Does (readPacket (o.x.ximm == 1) (reg s o.a)) s p0 s1 → (e.2 = true → cpKind p0 = 1) →
     p = (if e.2 then BitVec.ofNat 512 (p0.toNat % 2 ^ 448 + (reg s o.b).toNat * 2 ^ 448) else p0) → Counts s1 →
     (isTs s1 s1.cx = true →
       exec (e.1 o) s = .next (retire (issuedOne (heldOne s1 (.cpy p s1.cx.mode))) (after s (lenR o)))) ∧
     (∀ s2, isTs s1 s1.cx = false → Does release s1 () s2 →
       (∀ t, cmdCpy s2.cur (s2.cx.task.map identOf) s2.cx.mode p (reg s o.a) s2 = .ok t →
         exec (e.1 o) s = .next (retire (issuedOne t) (after s (lenR o)))) ∧
       (∀ f, cmdCpy s2.cur (s2.cx.task.map identOf) s2.cx.mode p (reg s o.a) s2 = .bad f →
         exec (e.1 o) s = .next (trapped s f)))) ∧
  ((∀ (o : OpR) (s s1 : State) (p : BitVec 512), Running s → okS o.x = true → On s o → IsReg s o.a → IsReg s o.b → IsReg s o.d →
     Does (readPacket (o.x.ximm == 1) (reg s o.a)) s p s1 → Counts s1 →
     ((reg s o.b).toNat < 1024 ∧ (servedBy s1 (reg s o.b).toNat).isSome = true →
       (isTs s1 s1.cx = true → exec (.cpyq o) s = .next (retire
         (wrote (issuedOne (heldOne s1 (.cpyq p (reg s o.b) s1.cx.mode))) o.d 0xFFFFFFFFFFFFFFFF#64) (after s (lenR o)))) ∧
       (∀ t, isTs s1 s1.cx = false → s1.cx.got = none → claimAsk s1 (reg s o.b).toNat none = some t →
         exec (.cpyq o) s = .next (enterWait (undoPorts s t) (.room (.claim (reg s o.b).toNat)))) ∧
       (∀ s2 s3 s4 w v, isTs s1 s1.cx = false → s1.cx.got = none → claimAsk s1 (reg s o.b).toNat none = none → Does release s1 () s2 →
         claimSlot s2 (reg s o.b).toNat = .ok (w, s3) → w < 2 ^ 64 →
         claimAsk { s3 with cx := { s3.cx with got := some (BitVec.ofNat 64 w) } } (reg s o.b).toNat (some w) = none →
         fillSlot { s3 with cx := { s3.cx with got := some (BitVec.ofNat 64 w) } } (reg s o.b).toNat w p s3.cx.mode
           (s3.cx.task.map identOf) = .done v s4 →
         exec (.cpyq o) s = .next (retire (wrote (issuedOne s4) o.d (BitVec.ofNat 64 w)) (after s (lenR o))))) ∧
     ((servedBy s1 (reg s o.b).toNat).isSome = false → exec (.cpyq o) s = .next (trapped s (faultAt cCFGBAD (reg s o.a))))) ∧
   (∀ (o : OpR) (s s1 s2 : State) (p : BitVec 512) (pay : List Byte), Running s → okS o.x = true → On s o → IsReg s o.a → IsReg s o.b →
     Does (readPacket (o.x.ximm == 1) (reg s o.a)) s p s1 → (reg s o.b).toNat / 2 ^ 19 = 0 →
     (reg s o.b).toNat / 4 % 2 ^ 13 < sysSize s1 → spawnBad s1 p false = false →
     Does (readPayload (o.x.ximm == 1) (reg s o.a + 64) ((reg s o.b).toNat / 2 ^ 15 % 16)) s1 pay s2 → Counts s2 →
     (isTs s2 s2.cx = true → exec (.msend o) s = .next (retire
       (issuedOne (heldOne s2 (.msend p pay (reg s o.b) s2.cx.mode))) (after s (lenR o)))) ∧
     (∀ s3 t, isTs s2 s2.cx = false → ((reg s o.b).toNat / 4 % 2 ^ 13 = ownPkg s2 ∨ (dev s2 0x100900).testBit 0 = false) →
       Does release s2 () s3 →
       sendMessage s3 { pkg := (reg s o.b).toNat / 4 % 2 ^ 13, die := (reg s o.b).toNat % 4, packet := p, payload := pay
                        super := s3.cx.mode } false = .ok t →
       exec (.msend o) s = .next (retire (issuedOne t) (after s (lenR o))))))

/-- R340, R341: NOP has no effect; WFE takes a set event flag, and else waits until it is set or its cycles have passed; SEV sets
the flags of its scope, or is held; IDLE waits its cycles. -/
def Obligations.NopAndEvents : Prop :=
  ∀ (o : OpR) (s : State), Running s → On s o →
    (Plain o → exec (.nop o) s = .next (retire s (after s (lenR o)))) ∧
    (Plain o → IsReg s o.b → (s.cx.ev = true ∨ s.cx.got.isSome = true) →
      exec (.wfe o) s = .next (done s { s.cx with ev := false } (lenR o))) ∧
    (Plain o → IsReg s o.b → s.cx.ev = false → s.cx.got = none →
      exec (.wfe o) s = .next (enterWait (undoPorts s s)
        (.event (if reg s o.b = 0 then none else some (s.cycle + (reg s o.b).toNat))))) ∧
    (okScp o.x = true → isTs s s.cx = false →
      exec (.sev o) s = .next (retire (((range' 0 4096).filter (fun c => decide
        (if o.x.scp.toNat ≤ 1 then c / 8 = s.cur / 8 else if o.x.scp = 2 then c / 128 = s.cur / 128
          else if o.x.scp = 3 then c / 1024 = s.cur / 1024 else True))).foldl
        (fun t c => updCtx t c (fun x => { x with ev := true })) s) (after s (lenR o)))) ∧
    (okScp o.x = true → isTs s s.cx = true →
      exec (.sev o) s = .next (retire (heldOne s (.sev (if o.x.scp = 0 then 1 else o.x.scp.toNat))) (after s (lenR o)))) ∧
    (Plain o → IsReg s o.b → s.cx.got.isSome = true → exec (.idle o) s = .next (retire s (after s (lenR o)))) ∧
    (Plain o → IsReg s o.b → s.cx.got = none →
      exec (.idle o) s = .next (let t := undoPorts s { s with cx := { s.cx with got := some 0 } }
        { t with cx := { t.cx with wait := some (.idle (s.cycle + max 1 ((reg s o.b).toNat % 2 ^ 16))) } }))

/-! ## Steps of the machine's own agents, each an event of the opcode table -/

/-- R48, R206, R207, R239, R287, R329-R331, R340, R341: an event that ends a wait lets the instruction go on where what it waits
for has come, as its task reads it (R62, R203), and else changes nothing; a deferred fault is delivered at the frontier, and a chunk wait of 2^20 cycles faults
SPILL_OVERFLOW; a free pattern's read ahead takes the next element, and leaves nothing where it faults. Publication is one
step (log 9). -/
def Obligations.WaitsEnd : Prop :=
  ∀ (s : State) (cid : Nat), Powered s →
    (∀ n, (ctxOf s cid).wait = some (.port n) → exec (.portStallResume cid) s =
      .next (if portReady s (ctxOf s cid) n then updCtx s cid (fun c => { c with wait := none }) else s)) ∧
    (∀ t, (ctxOf s cid).wait = some (.tagRetry t) →
      exec (.ldfRetry cid) s = .next (if t ≤ s.cycle then updCtx s cid (fun c => { c with wait := none }) else s)) ∧
    (∀ a ph, (ctxOf s cid).wait = some (.barrier a ph) → exec (.barwaitRelease cid) s =
      .next (if (natOfBytes (seenBytes s cid a 16)).testBit 96 = ph then s
        else updCtx s cid (fun c => { c with wait := none, got := some 0 }))) ∧
    (∀ a ph m v p c, (ctxOf s cid).wait = some (.group a ph) → groupOf (seenBytes s cid a 16) = some (m, v, p, c) → exec (.gwaitRelease cid) s =
      .next (if p = ph then s else updCtx s cid (fun c => { c with wait := none, got := some 0 }))) ∧
    (∀ a r, (ctxOf s cid).wait = some (.ring a) → ringOf (seenBytes s cid a 32) = some r → exec (.rawaitRelease cid) s =
      .next (if r.wp = r.rp then s else updCtx s cid (fun c => { c with wait := none }))) ∧
    (∀ t, (ctxOf s cid).wait = some (.event t) → exec (.wfeWake cid) s =
      .next (if (ctxOf s cid).ev = true then updCtx s cid (fun c => { c with wait := none }) else s)) ∧
    (∀ t, (ctxOf s cid).wait = some (.event (some t)) → exec (.wfeTimeout cid) s =
      .next (if t ≤ s.cycle then updCtx s cid (fun c => { c with wait := none, got := some 0 }) else s)) ∧
    (∀ t, (ctxOf s cid).wait = some (.idle t) → exec (.idleExpire cid) s =
      .next (if t ≤ s.cycle then updCtx s cid (fun c => { c with wait := none }) else s)) ∧
    ((ctxOf s cid).wait = some .frontier → exec (.frontierReached cid) s =
      .next (if isFront s (ctxOf s cid) then updCtx s cid (fun c => { c with wait := none }) else s)) ∧
    (∀ t, (ctxOf s cid).wait = some .dropped → (ctxOf s cid).task = some t → isFront s (ctxOf s cid) = true →
      exec (.frontierReached cid) s = .next (dropTask s t.tid)) ∧
    (∀ x, (ctxOf s cid).wait = some (.deferred x) → exec (.deferredFaultDelivery cid) s =
      .next (if isFront s (ctxOf s cid) then withCtx s cid (fun s => deliverTrap s x) else s)) ∧
    (∀ t ea, (ctxOf s cid).wait = some (.chunk t ea) → exec (.journalChunkWaitTimeout cid) s =
      .next (if t + 2 ^ 20 ≤ s.cycle then
        withCtx s cid (fun s => takeTrap s { f := faultAt cSPILL ea, pc := s.cx.pc, ir := s.cx.ir }) else s)) ∧
    (∀ n d, (ctxOf s cid).task.isSome = true → (portAt (ctxOf s cid) n).bind = .pattern d → db d 192 192 = 0 →
      (portAt (ctxOf s cid) n).ahead.length < (if d.getLsbD 194 then 2 else 8) →
      (portAt (ctxOf s cid) n).pos + (portAt (ctxOf s cid) n).ahead.length < patCount d →
      (∀ v s1, Does (patRead n d ((portAt (ctxOf s cid) n).pos + (portAt (ctxOf s cid) n).ahead.length)) (focus s cid) v s1 →
        exec (.patternReadahead cid n) s = .next (focus { s1 with
          cx := portSet s1.cx n { portAt s1.cx n with ahead := (portAt s1.cx n).ahead ++ [v] } } s.cur)) ∧
      (∀ f k s1, patRead n d ((portAt (ctxOf s cid) n).pos + (portAt (ctxOf s cid) n).ahead.length) (focus s cid) =
          .error (.trap f k) s1 →
        exec (.patternReadahead cid n) s = .next (focus (focus s cid) s.cur))) ∧
    ((ctxOf s cid).posted = [] → exec (.postedAtomicPerformed cid) s = .next s) ∧
    (∀ p ps r, (ctxOf s cid).posted = p :: ps → 64 * p.line < 2 ^ 32 →
      (∀ e ∈ (nodeAt s (3 * siteKey (64 * p.line))).inflight, ¬ (e.1.cid = some cid ∧ e.1.loc / 64 = p.line)) →
      bankHead s (3 * siteKey (64 * p.line)) false = some r → r.cid = some cid → r.loc / 64 = p.line →
      exec (.postedAtomicPerformed cid) s =
        .next (serveReq (settleWord (popBank s (3 * siteKey (64 * p.line)) false) r.loc) none r))

/-- R182, R193, R204, R209, R291: the ended frontier task of a domain begins its commit, and its lines go home; then its held
actions are issued as room comes, and with none left the commit ends and the domain goes on. A task's start writes its
argument line and sets the registers. The model's choices in it: a fault of the argument line is the task's, at its first
instruction (log 25); publication is one step (log 9); an entry that is not canonical is truncated as pcOf does (log 47); the start
drops the L1, and the cause, the epc and the event flag stay (log 29). -/
def Obligations.CommitsAndStarts : Prop :=
  (∀ (s : State) (dom : Nat), Powered s →
    (frontier s dom = none → exec (.tsCommit dom) s = .next s) ∧
    (∀ t e, frontier s dom = some t → s.ended.find? (fun e => e.tid = t) = some e → (domainAt s dom).commit = none →
      exec (.tsCommit dom) s = .next (updDomain (e.sb.foldl (fun s l => publishLine s (coreOf e.cid) l)
        { s with ended := s.ended.map (fun x => if x.tid = t then { x with sb := [] } else x) }) dom
        (fun d => { d with commit := some t }))) ∧
    ((domainAt s dom).commit = none → exec (.tsCommitComplete dom) s = .next s) ∧
    (∀ t e l, (domainAt s dom).commit = some t → s.ended.find? (fun e => e.tid = t) = some e →
      s.live.find? (fun l => l.task.tid = t) = some l →
      (e.held = [] → e.holds = [] → endGate s e = false → exec (.tsCommitComplete dom) s =
        .next (updDomain (dropRecords { s with
            ended := s.ended.filter (fun x => x.tid ≠ t), live := s.live.filter (fun x => x.task.tid ≠ t) } t) dom
          (fun d => { d with lastTs := some t.ts, commit := none }))) ∧
      (∀ h s1, e.held = [h] → e.holds = [] → endGate s e = false → performHeld s e.cid l.task h = some s1 →
        exec (.tsCommitComplete dom) s = .next (updDomain (dropRecords { s1 with
            ended := s1.ended.filter (fun x => x.tid ≠ t), live := s1.live.filter (fun x => x.task.tid ≠ t) } t) dom
          (fun d => { d with lastTs := some t.ts, commit := none }))) ∧
      (∀ h r, e.held = h :: r → e.holds = [] → performHeld s e.cid l.task h = none → heldStep s h = none →
        exec (.tsCommitComplete dom) s = .next { s with
          ended := s.ended.map (fun x => if x.tid = t then { x with held := h :: r, holds := [] } else x) }))) ∧
  (∀ (s s1 : State) (cid : Nat) (t : Task) (f1 : Option FaultInfo), Powered s → (ctxOf s cid).task = some t →
    ((ctxOf s cid).starting = false → exec (.taskStart cid) s = .next s) ∧
    ((ctxOf s cid).starting = true → writeArgs s cid t = (s1, f1) → ∀ g4 g5 g6 g7 f2,
      globals s1 cid t.super = ([g4, g5, g6, g7], f2) → exec (.taskStart cid) s =
      .next (updCtx (l1Drop s1 (coreOf cid)) cid (fun c => { c with
        starting := false, wait := none, got := none, pc := pcOf t.entry, ir := [], phys := [], v := [], p := [], k := [], lc := []
        g := setD (setD (setD (setD (setD (setD [] 0 2 (areaOf s cid + 65536)) 0 3 (areaOf s cid)) 0 4 g4) 0 5 g5) 0 6 g6) 0 7 g7
        fb := 0, bsp := areaOf s cid + 64, bsl := areaOf s cid + 32768, size := 40, rlo := 0, mode := t.super, pmode := false
        fault := 0xFFFFFFFF, ports := [], group := none
        walked := [], refill := .none
        trapNext := (f1.or f2).toList.map (fun f => { f := f, pc := pcOf t.entry, ir := [] }) })))) ∧
  (∀ (s : State) (cid : Nat) (super : Bool), (dev s 0x100740).testBit 0 = false → globals s cid super = ([0, 0, 0, 0], none))

/-- R211-R219, R223, R338, R397, R401: while TQTAB.EN is 1 a queue's next packet becomes its resident head, or is refused with a record; a queue with no head
for 4,096 cycles
is not resident; a head is a level higher after 2^20 cycles; the oldest gang past its timeout closes a cluster; a dispatch
resumes a saved task, spills a head if one must be, and selects; pipelines are rebalanced once in 4,096 cycles. What the Dispatcher has
still to translate, it asks its walker for (R31). The cancel takes effect on a die: its timestamp tasks are dropped, its free tasks
that stall are killed, its engines stop and its graphs go; a free task is killed 2^24 cycles later; DONE is set when no task
of the job is left. A party that waits for a fault record has it when one is free, and a fault task is launched in S mode. Which free
context a task takes (log 18), which core a rebalancing moves, and which stage at a tie (log 26), and which waiting party has the record
(log 8), are the model's choices; what the model reads into the rules is log 31. -/
def Obligations.DispatcherSteps : Prop :=
  ∀ (s : State) (die queue cid : Nat), Powered s →
    (∀ r q p v ridx sl hd, queueDie s queue = some die → look (dispAt s die).queues queue = some q →
      (dev s 0x100600).testBit 0 = true → (dispAt s die).stopped = false → (dispAt s die).cancelled = false →
      (dispAt s die).resident.find? (fun r => r.queue = queue) = some r → r.head = none → q.spilled = none →
      (∀ va, takeLacks s (dispAgt die queue) q.hdr = some va →
        exec (.dispatcherTakePacket queue) s = .next (agtAsk s (dispAgt die queue) va)) ∧
      (takeLacks s (dispAgt die queue) q.hdr = none → slotOf s (dispAgt die queue) q.hdr = (.packet p v ridx, sl, hd) →
        let u := queueUsed s (dispAgt die queue) q.hdr
        (∀ e, v = 1 → launchBad u p = false → tsTooLow u (pkDom p) (pkTs p) = false → seqRoom u (pkDom p) (pkNx p * pkNy p) = true →
          entryBy s (dispAgt die queue) (pkHidx p) = .ok e →
          exec (.dispatcherTakePacket queue) s = .next
            (let a := accept (takeSlot u sl hd ridx) p (pkTs p) (pk p 24 22) none false (pk p 9 8 == 2) e
             setHead a.2 die queue (some a.1))) ∧
        ((v ≠ 1 ∨ launchBad u p = true) → exec (.dispatcherTakePacket queue) s =
          .next (refuse (takeSlot u sl hd ridx) die queue 0 ridx (faultAt cCFGBAD 0))) ∧
        (v = 1 → launchBad u p = false → tsTooLow u (pkDom p) (pkTs p) = true → exec (.dispatcherTakePacket queue) s =
          .next (refuse (takeSlot u sl hd ridx) die queue 0 ridx (faultAt cTSORDER 0))))) ∧
    ((dev s 0x100600).testBit 0 = false → exec (.dispatcherTakePacket queue) s = .next s) ∧
    exec (.residentHeadRelease die queue) s = .next (updDisp s die (fun d => { d with
      resident := d.resident.filter (fun r => ¬ (r.queue = queue ∧ r.head = none ∧ r.emptySince + 4096 ≤ s.cycle)) })) ∧
    (queue < 4096 → exec (.headAging die queue) s = .next (updDisp s die (fun d => { d with
      resident := d.resident.map (fun r => if r.queue = queue
        then { r with head := r.head.map (fun h => if h.since + 2 ^ 20 ≤ s.cycle then { h with aged := true } else h) }
        else r) }))) ∧
    (∀ h, (lateGangs s die).find? (fun q => q.1 = queue) = some (queue, h) → (dispAt s die).closed = none →
      eligible s die queue h = false → (∀ q ∈ lateGangs s die, h.since ≤ q.2.since) →
      exec (.gangTimeout die queue) s = .next (updDisp s die (fun d => { d with
        closed := some (argMax ((range' 0 8).map (fun cl =>
          ((range' (128 * die + 16 * cl) 16).filter (fun c => (freeCtxs s c).length ≠ 0)).length)), queue) }))) ∧
    ((dispAt s die).stopped = true → exec (.dispatchSelect die) s = .next s) ∧
    ((dispAt s die).stopped = false → exec (.dispatchSelect die) s = .next (selectDie (spillHead
      (resumeSaved (acceptDue (dueJoin die (dispAt s die).due.length s) die) die) die) die)) ∧
    ((∀ q ∈ headsOf s die, eligible s die q.1 q.2 = false) → selectDie s die = s) ∧
    (∀ q h, (dispAt s die).stopped = false → (dispAt s die).cancelled = false → headsOf s die = [(q, h)] →
      eligible s die q h = true → selectDie s die = dispatchHead (updDisp s die (fun d => { d with
        last := put d.last (effPrio s h) q })) die q h) ∧
    (s.cycle / 4096 = (dispAt s die).rebalanced / 4096 → exec (.pipelineRebalance die) s = .next s) ∧
    (s.cycle / 4096 ≠ (dispAt s die).rebalanced / 4096 →
      (∀ q ∈ pipeQueues s die, hdrLacks s (dispAgt die q.1) q.2.hdr = none) →
      exec (.pipelineRebalance die) s = .next ((pipeQueues s die).foldl (fun s q => unitDone s (dispAgt die q.1))
        ((range' 1 7).foldl (fun s p => if pipeCores s die p = [] then s else rebalancePipe s die p)
          (updDisp s die (fun d => { d with rebalanced := s.cycle }))))) ∧
    (∀ q r va, s.cycle / 4096 ≠ (dispAt s die).rebalanced / 4096 → pipeQueues s die = q :: r →
      hdrLacks s (dispAgt die q.1) q.2.hdr = some va →
      exec (.pipelineRebalance die) s = .next (agtAsk s (dispAgt die q.1) va)) ∧
    -- the cancel
    ((dispAt s die).cancelDue = false → exec (.jcancelLinearise die) s = .next s) ∧
    ((dispAt s die).cancelDue = true → (∀ r ∈ (dispAt s die).resident, r.head = none) →
      (∀ q ∈ (dispAt s die).queues, q.2.spilled = none) → (dispAt s die).spawn = [] → (dispAt s die).due = [] →
      (dispAt s die).saved = [] → (∀ c, c / 1024 = die → (ctxOf s c).group = none) →
      (∀ e ∈ s.ended, e.cid / 1024 = die → ∀ h ∈ e.held, ∀ a ar, h ≠ .gleave a ar) →
      ∀ s1 mine, s1 = updDisp s die (fun d => { d with
        cancelDue := false, cancelled := true, cancelAt := s.cycle, resident := [], closed := none }) →
      mine = (range' (1024 * die) 1024).filter (fun c => (ctxOf s1 c).task.isSome) →
      exec (.jcancelLinearise die) s = .next (cancelGraphs (cancelEngines (mine.foldl (fun t c =>
          if cancelHits t c = true ∧ (ctxOf t c).wait.any isStall = true then cancelKill t c else t)
        (((mine.filter (fun c => isTs s1 (ctxOf s1 c))).filterMap (fun c => (ctxOf s1 c).task.map (·.tid)) ++
            (s1.ended.filter (fun e => e.cid / 1024 = die ∧ (domainAt s1 e.tid.dom).commit ≠ some e.tid)).map (·.tid)).foldl
          (fun t x => abortTask t x false) s1)) die) die)) ∧
    (∀ x, ∀ l ∈ (abortTask s x false).live, l.task.tid ≠ x) ∧
    (∀ t s1, (ctxOf s cid).task = some t → isTs s (ctxOf s cid) = false → domTs s1 t.tid.dom = false → (ctxOf s1 cid).task = some t →
      asyncRec s (cid / 1024) (ctxRec s cid t { f := faultAt cCANCEL 0, pc := (ctxOf s cid).pc, ir := (ctxOf s cid).ir }) = s1 →
      ∀ l ∈ (cancelKill s cid).live, l.task.tid ≠ t.tid) ∧
    (∀ e, e / 16 = die → look s.engines e ≠ none → (engineAt (cancelEngines s die) e).stopped = true) ∧
    exec (.cancelKillTimeout cid) s = .next (if cancelHits s cid = true ∧ (ctxOf s cid).wait.all isStall = true ∧
      (dispAt s (cid / 1024)).cancelAt + 2 ^ 24 ≤ s.cycle then cancelKill s cid else s) ∧
    ((dev s 0x100700).testBit 0 = false → (∀ d < 4, (dispAt s d).cancelled = true ∧ (dispAt s d).cancelDue = false) →
      jobTasks s = false → exec .jcancelComplete s = .next (setDev s 0x100700 (BitVec.ofNat 64 (dev s 0x100700 + 1)))) ∧
    (((dev s 0x100700).testBit 0 = true ∨ jobTasks s = true) → exec .jcancelComplete s = .next s) ∧
    (freeRec s die = none → exec (.faultRecordAlloc die) s = .next s) ∧
    (∀ c x, (freeRec s die).isSome = true → recordWaiters s die = [c] → (dispAt s die).recWait = [] →
      (ctxOf s c).wait = some (.record x) → exec (.faultRecordAlloc die) s =
        .next (withCtx { s with draws := s.draws + 1 } c (fun s => deliverTrap s x))) ∧
    (∀ r m n s3, (freeRec s die).isSome = true → recordWaiters s die = [] → (dispAt s die).recWait = [(r, true)] →
      writeRec (updDisp { s with draws := s.draws + 1 } die (fun d => { d with recWait := [] })) die r = some (n, m, s3) →
      exec (.faultRecordAlloc die) s = .next (updDisp s3 die (fun d => { d with ftask := d.ftask ++ [m] }))) ∧
    (∀ m b e, (dispAt s die).ftask.contains m = true → frbBase s die = some b →
      (dev s 0x100808).testBit 22 = true → domTs s (pkDom (faultPacket s (b + 128 * m))) = false →
      launchBad s (faultPacket s (b + 128 * m)) = false →
      handlerEntry s die (pkHidx (faultPacket s (b + 128 * m))) = .ok e →
      exec (.faultTaskLaunch die m) s = .next (enqueueSpawn (entryNote (updDisp s die (fun d => { d with ftask := d.ftask.erase m }))
        die (pkHidx (faultPacket s (b + 128 * m)))) die (faultPacket s (b + 128 * m)) 0 4 none true false e)) ∧
    (∀ m, (dispAt s die).ftask.contains m = false → exec (.faultTaskLaunch die m) s = .next s)

/-- Memory is in its canonical form at reset, and every instruction, event and step keeps it so, from any state at all (R4, R156; the form
itself is the model's, log 3). -/
def Obligations.EveryStepKeepsMemory : Prop :=
  MemInv State.reset ∧
  (∀ (i : Instr) (s t : State), MemInv s → exec i s = .next t → MemInv t) ∧
  (∀ (s t : State), MemInv s → step s = .next t → MemInv t)

/-- R31, R33, R43, R53-R57, R63, R65, R66, R68: a walk reads an entry, and ends at a leaf or a fault; a line that was asked for arrives at
an instruction cache; a bank port performs its head request unless the comparator holds its word, or port M has one of the same cycle for
it; an atomic is read, held and written; an engine fills lines, performs the oldest ready request and gives lines up; a snoop takes a
host line away; a scrub counts or poisons; a line outside the banks meets an error; a peer's access is served. What a line replaces
is free (log 6), and whether a peer exposes an offset (log 15); what the model reads
into the rules is log 37. -/
def Obligations.MemoryEvents : Prop :=
  ∀ (s : State) (k cl line : Nat) (portF : Bool), Powered s →
    ((walkerAt s k).walks = [] → exec (.walkComplete k) s = .next s) ∧
    (∀ w level table bs s1, (walkerAt s k).walks = [w] → w.pos = some (level, table) →
      homeRead s (locHbm (table + 8 * vaIndex (2 ^ 16 * w.page) level)) 8 = (bs, s1) →
      (entryOf (2 ^ 16 * w.page) level (natOfBytes bs) = .page → exec (.walkComplete k) s = .next (walkEnd s1 k 0 w none)) ∧
      (∀ e, entryOf (2 ^ 16 * w.page) level (natOfBytes bs) = .leaf e →
        exec (.walkComplete k) s = .next (walkEnd s1 k 0 w (some e))) ∧
      (∀ t, entryOf (2 ^ 16 * w.page) level (natOfBytes bs) = .table t → exec (.walkComplete k) s = .next (updWalker s1 k (fun x =>
        keepPtr { x with walks := x.walks.set 0 { w with pos := some (level + 1, t) } } (passed (2 ^ 16 * w.page) level t))))) ∧
    (∀ va bad, (∀ f ∈ (coreAt s k).ifills, f.va ≠ va) → exec (.icacheMissFill k va bad) s = .next s) ∧
    (∀ f bad l s1, (coreAt s k).ifills = [f] → lineAt (updCore s k (fun c => { c with ifills := [] })) (64 * f.line) = (l, s1) →
      ((f.again = false ∨ (l.bad = false ∧ bad = false)) →
        exec (.icacheMissFill k f.va bad) s = .next (wakeFetch (icFill s1 k { l with bad := l.bad || bad }) k f.va false)) ∧
      (f.again = true → (l.bad = true ∨ bad = true) →
        exec (.icacheMissFill k f.va bad) s = .next (wakeFetch s1 k f.va true))) ∧
    (bankHead s k portF = none → exec (.bankPortRequest k portF) s = .next s ∧ exec (.rmwAtomic k portF) s = .next s) ∧
    (∀ r, bankHead s k portF = some r → r.op = none → (∀ e ∈ (nodeAt s k).inflight, e.1.loc / 8 ≠ r.loc / 8) →
      (portF = true → ∀ m, bankHead s k false = some m → m.arrival ≠ r.arrival ∨ m.loc / 8 ≠ r.loc / 8) →
      exec (.bankPortRequest k portF) s = .next (serveReq (popBank s k portF) none r)) ∧
    (∀ r e, bankHead s k portF = some r → e ∈ (nodeAt s k).inflight → e.1.loc / 8 = r.loc / 8 →
      exec (.bankPortRequest k portF) s = .next s ∧ exec (.rmwAtomic k portF) s = .next s) ∧
    (∀ r m, bankHead s k true = some r → bankHead s k false = some m → m.arrival = r.arrival → m.loc / 8 = r.loc / 8 →
      exec (.bankPortRequest k true) s = .next s ∧ exec (.rmwAtomic k true) s = .next s) ∧
    (∀ r op s1, bankHead s k portF = some r → r.op = some op → (∀ e ∈ (nodeAt s k).inflight, e.1.loc / 8 ≠ r.loc / 8) →
      (portF = true → ∀ m, bankHead s k false = some m → m.arrival ≠ r.arrival ∨ m.loc / 8 ≠ r.loc / 8) →
      (nodeAt s k).inflight.length < 8 → poisoned s r.loc r.size = false →
      (r.cid = none → s1 = s) → (∀ c, r.cid = some c → s1 = publishWord s c r.loc r.size) →
      exec (.rmwAtomic k portF) s = .next (updNode (popBank s1 k portF) k (fun n => { n with inflight := n.inflight ++
        [(r, BitVec.ofNat 64 (atomNew op r.size (rdNat s1 r.loc r.size) (atomArg r.size r.data) (atomArg r.size r.expected)))] }))) ∧
    ((nodeAt s k).inflight = [] → exec (.rmwAtomicComplete k) s = .next s) ∧
    (∀ e r, (nodeAt s k).inflight = e :: r → exec (.rmwAtomicComplete k) s = .next (settleWord s e.1.loc)) ∧
    (∀ w, isBank s (8 * w) = true →
      exec (.bankScrub w .clean) s = .next s ∧ exec (.bankScrub w .single) s = .next (countCe s (homeDie (8 * w))) ∧
      exec (.bankScrub w .double) s = .next (markPoison s (8 * w) 8)) ∧
    (∀ p r, aePick s cl = some (p, r) →
      (∀ q ∈ (clusterAt s cl).ports, ∀ h, q.2.head? = some h → (clusterAt s cl).lines.any (fun l => l.line == h.loc / 64) = true) →
      (clusterAt s cl).fills = [] → exec (.atomicEnginePick cl) s = .next (serveReq (updCluster s cl (fun c => { c with
        ports := setD c.ports [] p ((getD c.ports [] p).drop 1), lastWinner := p })) (some cl) r)) ∧
    ((clusterAt s cl).fills.contains line = true → exec (.atomicEngineLineFill cl line) s = .next (aeFill s cl line)) ∧
    ((clusterAt s cl).fills.contains line = false → exec (.atomicEngineLineFill cl line) s = .next s) ∧
    ((∀ c ∈ s.clusters, ∀ l ∈ c.2.lines, l.line ≠ line) → exec (.atomicEngineRecall line) s = .next s) ∧
    (∀ c l ls, s.clusters = [(cl, c)] → c.lines = l :: ls → l.line = line →
      exec (.atomicEngineRecall line) s = .next (updCluster (wrBytes s (64 * line) (bytesOfNat 64 l.data.toNat)) cl
        (fun c => { c with lines := c.lines.filter (fun l => l.line ≠ line) }))) ∧
    (hostBase ≤ 64 * line → 64 * line < peerBase → (∀ c ∈ s.clusters, ∀ l ∈ c.2.lines, l.line ≠ line) →
      exec (.hostSnoop line) s = .next { s with
        cores := s.cores.map (fun c => (c.1, { c.2 with l1d := c.2.l1d.filter (fun l => l.line ≠ line) })) }) ∧
    (∀ a : PeerAcc, a.kind = 1 → 0 < a.len → a.len + a.off % 64 ≤ 64 → a.off + a.len ≤ 2 ^ 39 → exposed s a.off a.len = true →
      exec (.peerAccessServe a) s = .next (homeWrite s (locHbm a.off) (bytesOfNat a.len a.data))) ∧
    (∀ a : PeerAcc, 2 ≤ a.kind → a.len = 8 → a.off % 8 = 0 → a.off + 8 ≤ 2 ^ 39 → exposed s a.off 8 = true →
      poisoned s (locHbm a.off) 8 = false → exec (.peerAccessServe a) s =
        .next (rmwAt (giveUp s (locHbm a.off / 64)) (rmwOp (a.kind - 2)) (locHbm a.off) 8 (BitVec.ofNat 64 a.data) (BitVec.ofNat 64 a.expected)).2) ∧
    (∀ a : PeerAcc, exposed s a.off a.len = false → exec (.peerAccessServe a) s = .next s) ∧
    exec (.memorySideCacheAccess ⟨line, .none⟩) s = .next s ∧
    (∀ die core, exec (.memorySideCacheAccess ⟨line, .corrected die⟩) s = .next (countCe s die) ∧
      exec (.memorySideCacheAccess ⟨line, .l1 core⟩) s = .next (l1DropLine s core line)) ∧
    (hbmBase ≤ 64 * line → 64 * line < hostBase →
      exec (.memorySideCacheAccess ⟨line, .home⟩) s = .next (markPoison s (64 * line) 64))

/-- R121-R148, R137-R140, R144, R147, R151: an engine takes its queue's next packet or refuses it; a head claimed and empty for
2^20 cycles sets STL; a fenced copy starts when those before it have signalled; a transfer ends the phase, the copy, or with a
fault; a segment's update is sent; completion signals once; a full ring is tried again after 64 cycles; WP follows a record's
acknowledgement; an object's waiting updates are applied; a token acts at its target. The number of steps a transfer takes is
free (log 24); what the model reads into the rules is log 32. -/
def Obligations.CopyEvents : Prop :=
  ∀ (s : State) (eng q id : Nat), Powered s →
    (∀ s1, queueAsk s eng q = some s1 → exec (.copyQueueTake eng q) s = .next s1) ∧
    (queueAsk s eng q = none → nextQueue s eng = none → exec (.copyQueueTake eng q) s = .next s) ∧
    (∀ hdr p v ridx sl hd, queueAsk s eng q = none → nextQueue s eng = some (q, hdr) →
      slotOf s (queueAgt eng) hdr = (.packet p v ridx, sl, hd) →
      let s1 := updEngine (takeSlot (queueUsed s (queueAgt eng) hdr) sl hd ridx) eng (fun g => { g with
        lastQueue := q
        queues := g.queues.map (fun x => if x.1 = q then (x.1, x.2.1, none) else x) })
      (v ≠ 1 → exec (.copyQueueTake eng q) s = .next (refuse s1 (eng / 16) q 1 ridx (faultAt cCFGBAD 0))) ∧
      (∀ who, v = 1 → look (queueUsed s (queueAgt eng) hdr).authors (sl / 64) = who →
        (∀ s2, acceptCopy s1 eng p (some (q, ridx)) (who.any (·.super)) (who.bind (·.ident)) none = .ok s2 →
          exec (.copyQueueTake eng q) s = .next s2) ∧
        (∀ c, acceptCopy s1 eng p (some (q, ridx)) (who.any (·.super)) (who.bind (·.ident)) none = .error c →
          exec (.copyQueueTake eng q) s = .next (refuse s1 (eng / 16) q 1 ridx (faultAt c 0))))) ∧
    (∀ hdr t w r hd, (engineAt s eng).queues.find? (fun x => x.1 = q) = some (q, hdr, t) →
      queueView s (queueAgt eng) hdr = some (w, r, true, hd) → r < w →
      (t = none → exec (.copyQueueStall eng q) s = .next (updEngine s eng (fun g => { g with
        queues := g.queues.map (fun x => if x.1 = q then (x.1, x.2.1, some s.cycle) else x) }))) ∧
      (∀ n, t = some n → n + 2 ^ 20 ≤ s.cycle → (rdHome s (hd + 17) 1).testBit 0 = false →
        exec (.copyQueueStall eng q) s = .next (let s1 := updEngine s eng (fun g => { g with
            queues := g.queues.map (fun x => if x.1 = q then (x.1, x.2.1, some n) else x) })
          homeWrite s1 (hd + 17) [BitVec.ofNat 8 (rdHome s1 (hd + 17) 1 + 1)]))) ∧
    (∀ c, copyAt s eng id = some c →
      (c.started = false → exec (.fenceCopyStart eng id) s =
        .next (if fenceFree s c then updCopy s eng id (fun c => { c with started := true }) else s)) ∧
      ((c.started = false ∨ c.issued = true) → c.wr = [] → exec (.copyTransfer eng id) s = .next s) ∧
      (∀ w, (c.started = false ∨ c.issued = true) → c.wr = [w] → wrHeld { s with draws := s.draws + 1 } w = false →
        wrHome w < 2 ^ 22 → exec (.copyTransfer eng id) s = .next (performWr { s with draws := s.draws + 1 } eng c w)) ∧
      (∀ s1 s2 s3 c1 c2 c3, c.started = true → c.issued = false → c.wr = [] → c.faulted = none → c.abandoned = false →
        (dev s 0x100900).testBit 0 = false → c.next < (layOf c).total → c1 = { c with point := none } →
        s1 = (if cpSsp c.packet = true then { s with draws := s.draws + 1 } else
          agtAdvance { s with draws := s.draws + 1 } (engineAgt eng false c.id) ((layOf c).srcAt c.next).1) →
        readRun eng (layOf c) false (readLen c1 (layOf c) 127 c.next) s1 c1 = (s2, c2, .done) →
        (writeRun eng (layOf c) false false (c2.got.length + 1) s2 c2 = (s3, c3, .done) →
          exec (.copyTransfer eng id) s = .next (updCopy s3 eng c.id (fun _ => nextPhase c3))) ∧
        (∀ x, writeRun eng (layOf c) false false (c2.got.length + 1) s2 c2 = (s3, c3, .fault x) →
          exec (.copyTransfer eng id) s = .next (moveFault s3 eng c3 x))) ∧
      (∀ k a ph s1, cpKind c.packet = 1 → cpNosig c.packet = false → c.faulted = none → c.abandoned = false →
        (segsLeft c).contains k = true → 2 ≤ (segsLeft c).length → segAcked c k = true →
        signalGate s c = false → target s c 16 16 = .ok a →
        barUpdate (portTurn s false a) a 0 (-(segBytes c k : Int)) = .ok (ph, s1) →
        exec (.copySegmentComplete eng id k) s = .next (updCopy s1 eng id (fun c => { c with segs := c.segs ++ [k] }))) ∧
      (c.faulted = none → c.rsv = none → c.retryAt = 0 → c.abandoned = false →
        (c.written = false → exec (.copyComplete eng id) s = .next s) ∧
        (c.written = true → cpNosig c.packet = true → exec (.copyComplete eng id) s = .next (endCopy s eng id)) ∧
        (c.written = true → cpNosig c.packet = false → signalGate s c = false →
          (∀ s1 c1, signal s c 0 = .sent s1 c1 → c1.rsv = none → exec (.copyComplete eng id) s = .next (endCopy s1 eng c.id)) ∧
          (signal s c 0 = .full → exec (.copyComplete eng id) s =
            .next (updCopy s eng c.id (fun _ => { c with retryAt := s.cycle + 64 }))) ∧
          (∀ e a c1 s1, signal s c 0 = .bad e a c1 s1 → exec (.copyComplete eng id) s =
            .next (copyFault s1 eng { c1 with pend := true } (copyRec eng c1 (faultAt e a) false true
              ((layOf c).index (layOf c).total) ((layOf c).index (layOf c).total)))))) ∧
      (c.retryAt ≠ 0 → c.retryAt ≤ s.cycle → c.faulted = none → c.rsv = none → c.abandoned = false →
        ∀ s1 c1 x, signal s { c with retryAt := 0 } 0 = .sent s1 c1 → c1.rsv = some x →
        exec (.ringPushRetry eng id) s = .next (updCopy s1 eng c.id (fun _ => { c1 with retryAt := 0 })))) ∧
    (∀ ring slot g c, s.engines = [(eng, g)] → g.copies = [c] → c.rsv = some (ring, BitVec.ofNat 32 slot) →
      rdNat s (ring + 12) 4 = slot % 2 ^ 32 → exec (.ringRecordAck ring slot) s =
        .next (endCopy (homeWrite s (ring + 12) (bytesOfNat 4 (slot + 1))) eng c.id)) ∧
    (∀ a, sPlace s a = .bank → a < 2 ^ 32 → exec (.barrierUpdate a) s = .next (settle s a 16)) ∧
    (∀ t : CtlTok, (t.tks = true → ∀ a, checkObj s (BitVec.ofNat 64 t.tgt) 64 t.super = .ok a →
        exec (.controlTokenArrive t) s = .next (fireRecord s a t.val)) ∧
      (t.tks = false → ∀ s1, endpointToken s t.tgt = .ok s1 → exec (.controlTokenArrive t) s = .next s1))

/-- R6, R22, R121, R198, R212, R403, R410, R415-R418, R427-R430: writes of device registers: only RW bits change, and a queue
table, a translation root or a power request acts at once; reads clear RC fields. What the model reads into the rules is log
36. -/
def Obligations.DeviceRegisterEvents : Prop :=
  ∀ (s : State) (v : W64), Powered s →
    (∀ off s1, regAssigned off = true → off % 8 = 0 → regWrite s off 8 v.toNat = .ok s1 →
      exec (.registerWrite off v) s = .next s1) ∧
    (∀ off, regAssigned off = false → exec (.registerWrite off v) s = .next s) ∧
    exec (.ptrootWrite v) s = .next (invalAll (regMasked s 0x100000 0x7FFFFFFFE0 v)) ∧
    exec (.cqtabWrite v) s = .next (let t := regMasked s 0x100300 0x7FFFFFE001 v; if v.getLsbD 0 then readCqtab t else t) ∧
    exec (.tqtabWrite v) s = .next (let t := regMasked s 0x100600 0x7FFFFF8001 v; if v.getLsbD 0 then readTqtab t else t) ∧
    (∀ dom < 64, exec (.domcfgWrite dom v) s = .next (regMasked s (0x100400 + 8 * dom)
      (if s.live.any (fun l => l.task.tid.dom = dom) then 0x3F01 else 0x3F03) v)) ∧
    exec (.buddyWrite v) s = .next (let t := regMasked s 0x100900 0x7FFFF v
      if v.getLsbD 0 = true ∧ 2 ^ 38 < mirrorSize t then s else t) ∧
    (∀ m : Nat, regWrite s 0x100904 4 m = .ok (regMasked s 0x100900 0 0)) ∧
    exec (.pkgidWrite v) s = .next (let t := regMasked s 0x100A10 (if (dev s 0x100A10).testBit 26 then 0x4000000 else 0x7FFFFFF) v
      if v.getLsbD 26 then t else linksDown t) ∧
    (∀ t p, v.getLsbD 26 = false → exec (.pkgidWrite v) s = .next t → p < 12 →
      (dev t (0x100B00 + 8 * p)).testBit 0 = false ∧ dev t (0x100B00 + 8 * p) / 2 = dev s (0x100B00 + 8 * p) / 2) ∧
    (∀ die < 4, exec (.ecntRead die) s = .next (setDev s (0x100940 + 8 * die)
      (BitVec.ofNat 64 (dev s (0x100940 + 8 * die) / 2 ^ 48 * 2 ^ 48))) ∧
      (regRead s (0x100940 + 8 * die) 8).1 = dev s (0x100940 + 8 * die) % 2 ^ 48 + fencedOf s die % 65536 * 2 ^ 48) ∧
    (∀ p < 12, exec (.lnkstRead p) s = .next (setDev s (0x100B00 + 8 * p)
      (BitVec.ofNat 64 (dev s (0x100B00 + 8 * p) / 2 ^ 48 * 2 ^ 48 + dev s (0x100B00 + 8 * p) % 2 ^ 16)))) ∧
    exec .hsemRead s = .next (setDev s 0x100A00
      (BitVec.ofNat 64 (dev s 0x100A00 / 2 ^ 48 * 2 ^ 48 + dev s 0x100A00 % 2 ^ 32))) ∧
    (∀ who (e n : W32), (e.toNat ≠ dev s 0x100A00 % 2 ^ 32 ∨ (who = .p0 ∧ 2 ≤ n.toNat % 4) ∨ (who = .p1 ∧ n.toNat % 2 = 1) ∨
        (who = .device ∧ n.toNat % 4 ≠ 0)) → exec (.hsemCas who e n) s = .next s) ∧
    (∀ (e n : W32) who, e.toNat = dev s 0x100A00 % 2 ^ 32 → (who = .p0 ∧ n.toNat % 4 = 1) ∨ (who = .p1 ∧ n.toNat % 4 = 2) →
      exec (.hsemCas who e n) s = .next (setDev s 0x100A00
        (BitVec.ofNat 64 (dev s 0x100A00 / 2 ^ 32 * 2 ^ 32 + e.toNat / 2 ^ 16 * 2 ^ 16 + n.toNat % 4)))) ∧
    (∀ (e n : W32), e.toNat = dev s 0x100A00 % 2 ^ 32 → e.toNat % 4 ≠ 0 → n.toNat % 4 = 0 → ∀ who,
      exec (.hsemCas who e n) s = .next (setDev s 0x100A00
        (BitVec.ofNat 64 (dev s 0x100A00 / 2 ^ 32 * 2 ^ 32 + (e.toNat / 2 ^ 16 + 1) % 65536 * 2 ^ 16)))) ∧
    (v.toNat / 2 ^ 12 ≠ 0 → exec (.hnoteWrite v) s = .next s) ∧
    (v.toNat / 2 ^ 12 = 0 → (dev s 0x100900).testBit 0 = false → exec (.hnoteWrite v) s = .next { s with
      host := if getD s.host.masked false v.toNat then { s.host with pending := put s.host.pending v.toNat true }
        else { s.host with sent := s.host.sent ++ [(v.toNat / 2048, v.toNat % 2048)] } }) ∧
    ((s.host.failed = true ∨ (dev s 0x100A18).testBit 1 = false ∨ (dev s 0x100608).testBit 0 = false) →
      exec .bootGo s = .next (setBoot s 2)) ∧
    (∀ x, agtXl s 0 (hdrVa (bits (dev s 0x100A18) 56 6)) .rd 64 64 true = .ok x → linkDown s x = true →
      exec .bootGo s = .next (setBoot s 2)) ∧
    (∀ x p e, s.host.failed = false → (dev s 0x100A18).testBit 1 = true → (dev s 0x100608).testBit 0 = true →
      agtXl s 0 (hdrVa (bits (dev s 0x100A18) 56 6)) .rd 64 64 true = .ok x → linkDown s x = false → poisoned s x.loc 64 = false →
      p = packetOf (homeRead s x.loc 64).1 ||| 0x3F0000#512 → pk p 7 0 = 1 → launchBad s p = false → pk p 9 8 = 0 →
      domTs s (pkDom p) = false → handlerEntry s 0 (pkHidx p) = .ok e →
      exec .bootGo s = .next (
         let t := enqueueSpawn (entryNote (walkNote s 0 (hdrVa (bits (dev s 0x100A18) 56 6)).toNat) 0 (pkHidx p))
          0 p (pkTs p) (pk p 24 22) none true false e
         { t with host := { t.host with booted := true } })) ∧
    (∃ t, exec .pwrctlRun s = .next t ∧ t.host.standby = false ∧ dev t 0x100A20 / 4 % 4 = 0 ∧ dev t 0x100A20 % 4 = 0 ∧
      (∀ off ≠ 0x100A20, dev t off = dev s off) ∧ t.cx = s.cx ∧ t.mem = s.mem) ∧
    (jobRunning s = true → ∃ t, exec .pwrctlStandby s = .next t ∧ t.host = s.host ∧
      dev t 0x100A20 / 4 % 4 = dev s 0x100A20 / 4 % 4 ∧ t.cx = s.cx ∧ t.mem = s.mem) ∧
    (jobRunning s = false → ∃ t, exec .pwrctlStandby s = .next t ∧ t.host.standby = true ∧ dev t 0x100A20 / 4 % 4 = 1 ∧
      dev t 0x100A20 % 4 = 1 ∧ (∀ off ≠ 0x100A20, dev t off = dev s off) ∧ t.cx = s.cx ∧ t.mem = s.mem) ∧
    exec .pwrctlOff s = .next { State.reset with host := { HostSt.reset with off := true } } ∧
    (∀ w, (10 * (dev s 0x100A20 / 16 % 4096) < w → exec (.powerThrottle w) s = .next (if (dev s 0x100A20).testBit 16 then s
        else setDev s 0x100A20 (BitVec.ofNat 64 (dev s 0x100A20 + 2 ^ 16)))) ∧
      (20 * w ≤ 19 * (10 * (dev s 0x100A20 / 16 % 4096)) → exec (.powerThrottle w) s = .next (if (dev s 0x100A20).testBit 16
        then setDev s 0x100A20 (BitVec.ofNat 64 (dev s 0x100A20 - 2 ^ 16)) else s)) ∧
      (19 * (10 * (dev s 0x100A20 / 16 % 4096)) < 20 * w → w ≤ 10 * (dev s 0x100A20 / 16 % 4096) →
        exec (.powerThrottle w) s = .next s))

/-- R401, R403-R409: FRCMD and UNITCTL act on records and sites; a write of JCTL starts a save or a restore, and a job is saved whole, and
restored, its queue tables read again. The model's choices in it: UNFENCE ends a DRAIN (log 31); a write of JCTL with both actions
saves (log 36); what a save area holds of a job is its number (log 13). -/
def Obligations.UnitAndJobEvents : Prop :=
  ∀ (s : State) (die site n : Nat), Powered s →
    (recState s die n = some 1 →
      exec (.frcmdResume die n) s = .next (updRecCopy s die n (fun c => { c with
        faulted := none, pend := false, badPage := none })) ∧
      exec (.frcmdAbandon die n) s = .next (updRecCopy s die n (fun c => { c with faulted := none, abandoned := true }))) ∧
    (recState s die n = some 2 → exec (.frcmdResume die n) s = .next { s with fab := { s.fab with
        elems := s.fab.elems.map (fun e => (e.1, if e.2.faulted = some (some n) ∧ e.2.agtFault = true ∧ e.1 / 9216 = die
          then { e.2 with faulted := none, agtFault := false, badPage := none } else e.2)) } } ∧
      exec (.frcmdAbandon die n) s = .next s) ∧
    (∀ k b, recState s die n = some k → frbBase s die = some b →
      exec (.frcmdRelease die n) s = .next (clearBusy s (b + 128 * n))) ∧
    (recState s die n = none → exec (.frcmdResume die n) s = .next s ∧ exec (.frcmdAbandon die n) s = .next s ∧
      exec (.frcmdRelease die n) s = .next s) ∧
    (siteKind s die site ≠ 0xE → exec (.unitctlDrain die site) s = .next s ∧
      exec (.unitctlUnfence die site) s = .next { s with fmap := setD s.fmap false (2304 * die + site) false } ∧
      (graphAt s (2304 * die + site) = none →
        exec (.unitctlFence die site) s = .next { s with fmap := setD s.fmap false (2304 * die + site) true } ∧
        exec (.unitFailureDetect die site) s = .next { s with fmap := setD s.fmap false (2304 * die + site) true }) ∧
      (∀ b g, graphAt s (2304 * die + site) = some (b, g) →
        exec (.unitctlFence die site) s = .next (let t := freezeGraph { s with fmap := setD s.fmap false (2304 * die + site) true } b;
          { t with fab := { t.fab with graphs := t.fab.graphs.map (fun x => (x.1, if x.1 = b then { x.2 with lost := true } else x.2)) } }) ∧
        exec (.unitFailureDetect die site) s = exec (.unitctlFence die site) s)) ∧
    (siteKind s die site = 0xE → ∀ core, core = 128 * die + siteRank s die 0xE site →
      exec (.unitctlUnfence die site) s = .next (updCore { s with fmap := setD s.fmap false (2304 * die + site) false } core
        (fun c => { c with stopped := false })) ∧
      (graphAt s (2304 * die + site) = none → exec (.unitctlFence die site) s =
        .next (let t := (range' (8 * core) 8).foldl loseTask { s with fmap := setD s.fmap false (2304 * die + site) true }
          ((t.ended.filter (fun e => e.cid / 8 = core)).map (·.tid)).foldl loseEnded t)) ∧
      exec (.unitctlDrain die site) s = .next
        (let t := (range' (8 * core) 8).foldl preempt (updCore s core (fun c => { c with stopped := true }))
         ((t.ended.filter (fun e => e.cid / 8 = core)).map (·.tid)).foldl
           (fun s i => if frontier s i.dom = some i then s else abortTask s i true) t)) ∧
    (∀ v : W64, s.host.job.isSome = true → exec (.registerWrite 0x100880 v) s = .next s) ∧
    (∀ v : W64, s.host.job = none → exec (.registerWrite 0x100880 v) s = .next (let t := regMasked s 0x100880 0x7FFFFFF000 v
      if v.getLsbD 0 then jobBegins t true else if v.getLsbD 1 then jobBegins t false else t)) ∧
    (∃ t k, exec .jctlSave s = .next t ∧ t.engines = [] ∧ t.domains = [] ∧ t.live = [] ∧ t.ended = [] ∧
      (∀ e ∈ t.fab.elems, ∀ f ∈ e.2.fields, f.1 = 0x16) ∧ t.fab.graphs = [] ∧ (look t.host.saved k).isSome = true ∧
      (k < 2 ^ 64 → rdNat t (locHbm (bits (dev s 0x100880) 38 12)) 8 = k)) ∧
    (∀ bs u, homeRead (jobEnds s) (locHbm (bits (dev s 0x100880) 38 12)) 8 = (bs, u) →
      (look u.host.saved (natOfBytes bs) = none → exec .jctlRestore s = .next u) ∧
      (∀ p, look u.host.saved (natOfBytes bs) = some p → (∀ d ∈ p.disp, d.2.saved = []) →
        ∃ s1 s2 t, exec .jctlRestore s = .next t ∧ s1.engines = p.engines ∧ s1.mem = u.mem ∧
          s1.dev = p.dev ++ u.dev.filter (fun r => ¬ r.1 < 0x100800) ∧
          s2 = (if (dev s1 0x100300).testBit 0 then readCqtab s1 else s1) ∧ t.engines = s2.engines ∧
          (∀ d, (dispAt t d).queues = (dispAt (if (dev s2 0x100600).testBit 0 then readTqtab s2 else s2) d).queues) ∧
          t.domains = p.domains ∧ t.live = p.live ∧ t.ended = p.ended ∧ t.dir = p.dir ∧ t.fab.circuits = p.fab.circuits ∧
          (∀ g ∈ t.fab.graphs, g.2.frozen = false) ∧ t.mem = u.mem ∧ t.host = u.host))

/-- R221, R350, R354, R357: an element fires the context that its site's arbiter names: what its step does happens, and its graph
has started; a fault is recorded and the context withholds its output. A step that only asks a walker for a page, or waits for a
mirror point, is no firing. What no context can do changes nothing. What the model
reads into the rules is log 33. -/
def Obligations.ElementsFire : Prop :=
  (∀ e ∈ [((Instr.scnFire : Nat → Instr), 1, scnStep), (.isxFire, 2, fun k => twoStep k false), (.uniFire, 3, fun k => twoStep k true),
      (.rptFire, 4, rptStep), (.redFire, 5, redStep), (.lwrFire, 6, lwrStep), (.vrdFire, 7, vrdStep), (.cmbFire, 8, cmbStep),
      (.rowFire, 9, rowStep), (.memopFire, 0xB, memopStep), (.joinFire, 0xC, joinStep)],
    ∀ (k : Nat) (s : State), Powered s →
      (∀ s1, Fires s e.2.1 k → e.2.2 k s = .ok () s1 →
        exec (e.1 k) s = .next (if hasFired s s1 k then fired s1 k else s1)) ∧
      (∀ c a p i s1, Fires s e.2.1 k → e.2.2 k s = .error (.fault c a p i) s1 → c ≠ cBMV →
        exec (e.1 k) s = .next (fired (elemFault s k c a p i) k)) ∧
      ((kindAt s (k / 4) ≠ e.2.1 ∨ arbiter s (k / 4) ≠ some k) → exec (e.1 k) s = .next s)) ∧
  (∀ (s : State) (k : Nat), Powered s →
    (∀ s1, elemReady s k = true → skipStep k s = .ok () s1 → exec (.skipReceived k) s = .next s1) ∧
    (elemReady s k = false → exec (.skipReceived k) s = .next s) ∧
    ((elemAt s k).ended = false → exec (.periodCompletion k) s = .next s) ∧
    (∀ s1, (elemAt s k).ended = true → (elemAt s k).frozen = false → (nodeAt s (3 * (k / 4))).portF = [] → awayDue s (elemAt s k).away = false →
      (dev s 0x100900).testBit 0 = false → periodSignal s k = .ok s1 → exec (.periodCompletion k) s =
        .next (updElem s1 k (fun e => { e with ended := false, wrote := 0, bytes := 0, away := [], point := none }))) ∧
    (s.cycle < getD s.fab.period 0 k + 256 → exec (.siteArbiterPeriod k) s = .next s) ∧
    (∀ c, getD s.fab.period 0 k + 256 ≤ s.cycle → (range' (4 * k) 4).filter (fun j => (fld s j 1).testBit 0) = [c] →
      exec (.siteArbiterPeriod k) s = .next (let t := updElem s c (fun e => { e with
          occ := 0, quota := 256 })
        { t with fab := { t.fab with period := put t.fab.period k s.cycle } })))

/-- R358-R373, R377: what a token does at each unit: a scanner's next coordinate, a match and an unmatched coordinate of the
intersecter and unioner, a repeat, a sum, a value written and read, a combination, a row's lanes, a load and a join. What the
model reads into the rules is log 33. -/
def Obligations.ElementTokens : Prop :=
  ∀ (s : State) (k : Nat), Powered s →
    (∀ op f rd, Fires s 1 k → scnOf (elemAt s k).run = (op, some f, rd) → blk (elemAt s k) 16 1 % 4 = 0 → f.p < f.e →
      (ctl s k).testBit 1 = false → Room s k [0, 1] →
      exec (.scnFire k) s = .next (fired (ranTo (updElem
        (emitted s k [(0, tokCoord f.p), (1, tokRef (f.ref * blk (elemAt s k) 0 4 + f.p))]) k (fun e => { e with emit := true })) k
        (.scn op (if f.p + 1 < f.e then some { f with p := f.p + 1 } else none) rd)) k)) ∧
    (∀ (c : W32) (ra rb : Token) sent, twoOf (elemAt s k).run = (sent, none, none) → (ctl s k).testBit 1 = false → Room s k [0, 1, 2] →
      IsHead s k 0 (idep s k) { tag := tCOORD, data := c } → IsHead s k 1 (idep s k) ra → ra.tag = tREF →
      IsHead s k 2 (idep s k) { tag := tCOORD, data := c } → IsHead s k 3 (idep s k) rb → rb.tag = tREF →
      ∀ u, u = updElem (emitted s k [(0, { tag := tCOORD, data := c }), (1, ra), (2, rb)]) k (fun e => { e with emit := true }) →
      (Fires s 2 k → exec (.isxFire k) s = .next (fired (takeAt (takeAt (takeAt (takeAt u k 0) k 1) k 2) k 3) k)) ∧
      (Fires s 3 k → exec (.uniFire k) s = .next (fired (takeAt (takeAt (takeAt (takeAt u k 0) k 1) k 2) k 3) k))) ∧
    (∀ (c d : W32) (ra rb : Token) sent, twoOf (elemAt s k).run = (sent, none, none) → (ctl s k).testBit 1 = false → Room s k [0, 1, 2] →
      c.toNat < d.toNat → (fld s k 0x12).testBit 0 = false →
      IsHead s k 0 (idep s k) { tag := tCOORD, data := c } → IsHead s k 1 (idep s k) ra → ra.tag = tREF →
      IsHead s k 2 (idep s k) { tag := tCOORD, data := d } → IsHead s k 3 (idep s k) rb → rb.tag = tREF →
      (Fires s 2 k → exec (.isxFire k) s = .next (fired (takeAt (takeAt s k 0) k 1) k)) ∧
      (Fires s 3 k → exec (.uniFire k) s = .next (fired (takeAt (takeAt (updElem
        (emitted s k [(0, { tag := tCOORD, data := c }), (1, ra), (2, tokRef 0xFFFFFFFF)]) k
        (fun e => { e with emit := true })) k 0) k 1) k))) ∧
    (∀ c t b w n i p, Fires s 4 k → (fld s k 0x12).testBit 0 = false → rptOf (elemAt s k).run = (some c, b, w, n, i, p) → Room s k [0] →
      IsHead s k 1 (idep s k + 1) t → t.tag = tCOORD → exec (.rptFire k) s = .next (fired (takeAt (emitted s k [(0, c)]) k 1) k)) ∧
    (∀ acc any t, Fires s 5 k → ((elemAt s k).run = .red acc any ∨ (elemAt s k).run = .idle ∧ acc = BitVec.ofNat 32 (blk (elemAt s k) 0 4)) → blk (elemAt s k) 5 1 % 16 = 0xC → blk (elemAt s k) 4 1 % 4 = 0 →
      isW2 s k 0 = false → IsHead s k 0 (idep s k) t → t.tag = tVAL →
      exec (.redFire k) s = .next (fired (ranTo (takeAt s k 0) k (.red (acc + t.data) true)) k)) ∧
    (∀ p f vs c v, Fires s 6 k → (elemAt s k).run = .lwr p f true vs → blk (elemAt s k) 18 1 % 8 = 2 →
      IsHead s k 0 (idep s k) c → c.tag = tCOORD → IsHead s k 1 (idep s k) v → v.tag = tVAL → c.data.toNat < blk (elemAt s k) 12 4 →
      ∀ sz a, sz = elemSize (blk (elemAt s k) 19 1 % 16) → a = blk (elemAt s k) 8 4 + sz * (f * blk (elemAt s k) 12 4 + c.data.toNat) →
      portCheck s k a sz = none →
      exec (.lwrFire k) s = .next (fired (ranTo (updElem (takeAt (takeAt (updElem
        (unitWrite s true ((elemAgt k).author s) a (bytesOfNat sz (v.data.toNat % 2 ^ (8 * sz))) false) k
        (fun e => { e with bytes := e.bytes + sz })) k 0) k 1) k (fun e => { e with wrote := e.wrote + 1 })) k (.lwr p f true vs)) k)) ∧
    (∀ t, Fires s 7 k → Room s k [0] → IsHead s k 0 (idep s k) t → t.tag = tREF → t.data = 0xFFFFFFFF →
      exec (.vrdFire k) s = .next (fired (takeAt (emitted s k [(0, tokVal (blk (elemAt s k) 4 4 % 2 ^ (8 * elemSize (blk (elemAt s k) 8 1 % 16))))]) k 0) k)) ∧
    (∀ x y, Fires s 8 k → Room s k [0] → IsHead s k 0 (idep s k) x → x.tag = tVAL → IsHead s k 1 (idep s k) y → y.tag = tVAL →
      isW2 s k 0 = false → blk (elemAt s k) 4 1 % 32 = 0 → blk (elemAt s k) 5 1 = 0xCC →
      exec (.cmbFire k) s = .next (fired (takeAt (takeAt (emitted s k [(0, { tag := tVAL, data := x.data + y.data })]) k 0) k 1) k)) ∧
    (∀ a b c t, Fires s 9 k → Room s k [0] → ((elemAt s k).run = .row a b c none ∨ (elemAt s k).run = .idle ∧ a = 0 ∧ b = 0 ∧ c = 0) →
      blk (elemAt s k) 14 1 % 2 = 0 →
      isW2 s k 0 = false → IsHead s k 0 (idep s k) t → t.tag = tVAL → blk (elemAt s k) 0 4 = 0 →
      ∀ x, x = elemVal (blk (elemAt s k) 13 1 % 16) (elPol s k) t.data.toNat →
      exec (.rowFire k) s = .next (fired (ranTo (takeAt (emitted s k [(0, tokVal (elemEnc (blk (elemAt s k) 13 1 / 16) (elRm s k)
        (elPol s k) (rowLanes (elemAt s k) (elRm s k) (elPol s k) x (blk (elemAt s k) 12 1) 0 x)))]) k 0) k
        (.row a b c none)) k)) ∧
    (∀ t, Fires s 0xB k → mopMode s k = 0 → mopOrdered s k = false → Room s k [0] → IsHead s k 0 (idep s k) t → t.tag = tCOORD →
      t.data = 0xFFFFFFFF → exec (.memopFire k) s = .next (fired (takeAt (emitted s k [(0, tokVal 0)]) k 0) k)) ∧
    (∀ (i v : Token) sz a, Fires s 0xB k → mopMode s k = 1 → mopOrdered s k = false → isW2 s k 1 = false →
      IsHead s k 0 (idep s k) i → i.tag = tCOORD → i.data ≠ 0xFFFFFFFF → IsHead s k 1 (idep s k) v → v.tag = tVAL →
      sz = elemSize (mopFmt (elemAt s k)) → a = blk (elemAt s k) 0 4 + i.data.toNat * sz →
      a / 2 ^ 18 = blk (elemAt s k) 0 4 / 2 ^ 18 → (a + sz - 1) / 2 ^ 18 = a / 2 ^ 18 → portCheck s k a sz = none →
      (nodeAt s (3 * siteKey a)).portF.length < 16 →
      exec (.memopFire k) s = .next (fired (takeAt (takeAt (updElem (updNode s (3 * siteKey a) (fun x => { x with portF := x.portF ++
        [{ op := none, loc := a, size := sz, data := BitVec.ofNat 64 (v.data.toNat % 2 ^ (8 * sz)), expected := 0, cid := none
           elem := some k, arrival := s.cycle }] })) k (fun e => { e with wrote := e.wrote + 1, bytes := e.bytes + sz })) k 0) k 1) k)) ∧
    (∀ at_ done i t, Fires s 0xC k → ((elemAt s k).run = .join at_ done ∨ (elemAt s k).run = .idle ∧ at_ = 0 ∧ done = []) → bits (fld s k 0x12) 7 5 ≠ 0 → fld s k 0x12 % 4 = 0 →
      joinNext (fld s k 0x13) (bits (fld s k 0x12) 7 5) done (bits (fld s k 0x12) 7 5) at_ = some i → Room s k [0] →
      IsHead s k (bits (fld s k 0x13) (2 * i + 1) (2 * i)) (idep s k) t → (isData t.tag = true ∨ isStop t.tag = true) →
      exec (.joinFire k) s = .next (fired (ranTo (takeAt (emitted s k [(0, t)]) k (bits (fld s k 0x13) (2 * i + 1) (2 * i))) k
        (.join (i + 1) done)) k))

/-- R49, R106-R113, R117, R382-R389: a cell's operation begins when its buffers are full and its accumulator is free; bands are
decoded and released; a chunk's end frees its buffers and fills the accumulator; a drain goes on and ends; the commands MMA,
DRAIN and ZERO are performed, or refused, at a cell that fires or not; beside a chunk the decoder reads the next tile's entry and decodes
its first band ahead. What the model reads into the rules is log 34. -/
def Obligations.MatrixEvents : Prop :=
  ∀ (s : State) (key : Nat), Powered s →
    (∀ b s1, cellReady s key = true → (cellCfg s key).manf = false →
      b = { zb := (cellCfg s key).alt && (cellAt s key).t % 2 == 1, a := (cellAt s key).nextA % (cellCfg s key).nbA
            b := (cellAt s key).nextB % (cellCfg s key).nbB, cmd := none } →
      (beginChunk s key b = some s1 → exec (.matrixOpFire key) s = .next s1) ∧
      (beginChunk s key b = none → exec (.matrixOpFire key) s = .next s)) ∧
    (∀ b, (cellAt s key).busy = none → tagFull s (.buffer key 0 b.a) = true → tagFull s (.buffer key 1 b.b) = true →
      ((cellAt s key).tag b.zb = .empty ∧ (cellAt s key).c = 0 ∨ (cellAt s key).tag b.zb = .live ∧ 0 < (cellAt s key).c) →
      (cellCfg s key).bmen = false → (cellCfg s key).bcode = false →
      poisoned s (bufBase s key 0 b.a) (cellCfg s key).bytesA = false → poisoned s (bufBase s key 1 b.b) (cellCfg s key).bytesB = false →
      look (cellAt s key).taint b.a ≠ some .poison → look (cellAt s key).taint (8 + b.b) ≠ some .poison →
      (matOp s key b).arrays = [] → beginChunk s key b = some (updCell (updElem (startGraph s key) (4 * key)
          (fun e => { e with done := false })) key (fun c =>
        { c.setTag b.zb .live with busy := some b, k := 0 }))) ∧
    ((cellReady s key = false ∨ (cellCfg s key).manf = true) → exec (.matrixOpFire key) s = .next s) ∧
    (∀ b s1, (cellAt s key).busy = some b → cellReady s key = true → (cellCfg s key).bcode = true → aheadDecode s key b = some s1 →
      exec (.madderBandDecode key) s = .next s1) ∧
    (∀ b n o s1 x, nextChunk s key b = some (n, o) → (cellAt s key).ahead = none →
      arraysAt s (4 * key) [(o.cfg.par 36 4 + 8 * o.tileNo, 8)] = (none, s1) →
      codedAt s1 o (rdNat s1 (o.cfg.par 36 4 + 8 * o.tileNo) 8) = .ok x →
      aheadDecode s key b = some (updCell s1 key (fun c => { c with
        ahead := some { buf := n, tile := o.tileNo, tab := x, rows := [], lanes := [], ptr := 0 } }))) ∧
    (∀ b s1 x r, (∀ b', (cellAt s key).busy = some b' → aheadDecode s key b' = none) → decodeFor s key = some b →
      cellReady s key = true → (cellCfg s key).bcode = true →
      ((cellAt s key).band = 0 ∨ (cellAt s key).busy.isSome = true) → (matOp s key b).ready < (cellCfg s key).kc →
      codedOf s (matOp s key b) b.zb = .ok (x, s1) → x.stored = false →
      codedBand s1 x.freqs (matOp s key b).baseB (x.bounds.getD (cellAt s key).band 0) (x.bounds.getD ((cellAt s key).band + 1) 0) = r →
      (∀ rows xs w, r = .ok (rows, xs, w) → exec (.madderBandDecode key) s = .next (updCell s1 key (fun c => { c with
        rows := c.rows ++ rows, band := c.band + 1, lanes := xs, step := 128, ptr := w }))) ∧
      (∀ lane, r = .error lane → exec (.madderBandDecode key) s = .next (malformed s1 (matOp s key b) b.zb (cellAt s key).band lane))) ∧
    (∀ b x, (cellAt s key).coded = some x → codedOf s (matOp s key b) b.zb = .ok (x, s)) ∧
    (∀ b s1 x, (cellAt s key).coded = none →
      arraysAt s (4 * key) [((cellCfg s key).par 36 4 + 8 * (matOp s key b).tileNo, 8)] = (none, s1) →
      codedAt s1 (matOp s key b) (rdNat s1 ((cellCfg s key).par 36 4 + 8 * (matOp s key b).tileNo) 8) = .ok x →
      codedOf s (matOp s key b) b.zb = .ok (x, updCell s1 key (fun c => { c with coded := some x }))) ∧
    (∀ b, (cellAt s key).busy = some b → cellReady s key = true → (cellCfg s key).kc ≤ (matOp s key b).ready →
      ∀ s1 (nxt : Cell → Cell), s1 = useBuffer (useBuffer (runSteps s key (cellCfg s key).kc) key 0 b.a) key 1 b.b →
      (∀ c : Cell, nxt c = ({ c with
        busy := none, k := 0, coded := none, rows := [], band := 0, lanes := [], step := 0, ptr := 0, ahead := none } : Cell).adopt
          c.ahead ((matOp s key b).tileNo + 1)) →
      ((cellAt s key).c + 1 < (cellCfg s key).kch → exec (.matrixChunkComplete key) s = .next (nextDrain (doneCmd
        (updCell s1 key (fun c => { nxt c with c := c.c + 1 })) key b.cmd) key)) ∧
      ((cellCfg s key).kch ≤ (cellAt s key).c + 1 → b.zb = false → exec (.matrixChunkComplete key) s = .next (nextDrain (doneCmd
        (updCell s1 key (fun c => { nxt c with tagA := .full, c := 0, t := c.t + 1, tileA := c.t })) key b.cmd) key)) ∧
      ((cellCfg s key).kch ≤ (cellAt s key).c + 1 → b.zb = true → exec (.matrixChunkComplete key) s = .next (nextDrain (doneCmd
        (updCell s1 key (fun c => { nxt c with tagB := .full, c := 0, t := c.t + 1, tileB := c.t })) key b.cmd) key))) ∧
    (∀ (c : Cell) a tile, c.adopt none tile = c ∧ (a.tile ≠ tile → c.adopt (some a) tile = c) ∧
      (a.tile = tile → c.adopt (some a) tile = { c with
        coded := some a.tab, rows := a.rows, lanes := a.lanes, ptr := a.ptr
        step := if a.lanes = [] then 0 else 128, band := if a.rows = [] then 0 else 1 })) ∧
    (∀ d, (cellAt s key).drain = some d → cellReady s key = true → (elemAt s (4 * key)).ended = false → (cellCfg s key).dtgt = 0 →
      drainArrays (cellCfg s key) d = [] →
      (∀ t, drainToken s (cellCfg s key) (cellAt s key) d = some t → Room s (4 * key) [0] → exec (.drainComplete key) s =
        .next (updCell (emitted s (4 * key) [(0, t)]) key (fun c => { c with
          drain := some { d with next := d.next + 1 }, point := none }))) ∧
      (drainToken s (cellCfg s key) (cellAt s key) d = none → exec (.drainComplete key) s = .next (endDrain s key d))) ∧
    (∀ x zb a b s1, headCmd s key 0 = some (x, zb, a, b) →
      ((cellCfg s key).manf = true → a < (cellCfg s key).nbA → b < (cellCfg s key).nbB → cellReady s key = true →
        beginChunk s key { zb := zb, a := a, b := b, cmd := some x } = some s1 → exec (.mxopMma key) s = .next (popCmd s1 key)) ∧
      ((cellCfg s key).manf = false → exec (.mxopMma key) s = .next (cellRefuse (popCmd s key) key cCFGBAD))) ∧
    (∀ x zb a b, headCmd s key 1 = some (x, zb, a, b) → cmdWorks s key (some zb) = false →
      ((cellCfg s key).man = true → (cellAt s key).tag zb = .full → (cellAt s key).drain = none →
        exec (.mxopDrain key) s = .next (beginDrain (popCmd s key) key zb (some x))) ∧
      (((cellCfg s key).man = false ∨ (cellAt s key).tag zb ≠ .full) →
        exec (.mxopDrain key) s = .next (cellRefuse (popCmd s key) key cCFGBAD))) ∧
    (∀ x zb a b, headCmd s key 2 = some (x, zb, a, b) → cmdWorks s key none = false →
      exec (.mxopZero key) s = .next (doneCmd (discardAcc (popCmd s key) key zb) key (some x)))

/-- R336, R337, R347-R354, R376, R390-R393: a configuration word is applied, or faults and stops its command; a parameter block is
taken; a start token ends a wait or is kept; a source sends the round marker; a freeze reads out and a thaw goes on; a circuit
sends packets, takes them in order and acknowledges them. What a readout keeps beside accumulators is the model's choice (log
12), and where a graph that holds a fenced site is placed again (R409, log 56); what it reads into the rules is log 35. -/
def Obligations.GraphEvents : Prop :=
  (∀ (s : State) (cid : Nat) (cmd : CfgCmd) (r : List CfgCmd), Powered s → (ctxOf s cid).cfg = cmd :: r →
    (∀ w g, cmd.op = .word w → cidReads s cid = false → look s.fab.graphs cmd.base = some g →
      (g.frozen = true ∨ graphIdle s cmd.base g = true) → wordWaits s g w.toNat = false →
      (∀ t, applyWord s cid cmd g w.toNat = .ok t → exec (.cfgWordApply cid) s = .next (cfgPop t cid)) ∧
      (∀ c, applyWord s cid cmd g w.toNat = .error c → exec (.cfgWordApply cid) s =
        .next (cfgFault (cfgPop (unscaled s ((wordSite g w.toNat).getD 0) c) cid) cmd
          { cause := c, addr := BitVec.ofNat 64 cmd.base }))) ∧
    (∀ va n h s1, cmd.op = .stream va none n → cidReads s cid = false → va.toNat % 32 = 0 →
      agtWaits s (cmd.agt cid) false va 32 = none → streamRead s (cmd.agt cid) cmd va 32 = .ok (h, s1) →
      (∀ t, openStream s1 cmd h = .ok t → exec (.cfgStreamApply cid) s = .next (updCtx t cid (fun c => { c with
        cfg := { cmd with op := .stream va (some (BitVec.ofNat 256 h)) 0 } :: c.cfg.drop 1 }))) ∧
      (∀ c, openStream s1 cmd h = .error c → exec (.cfgStreamApply cid) s =
        .next (cfgFault (cfgPop (unitDone s (cmd.agt cid)) cid) cmd { cause := c, addr := va }))) ∧
    (∀ va n s1, cmd.op = .stream va none n → cidReads s cid = false → va.toNat % 32 = 0 →
      agtWaits s (cmd.agt cid) false va 32 = some s1 → exec (.cfgStreamApply cid) s = .next s1) ∧
    (∀ va h n g, cmd.op = .stream va (some h) n → look s.fab.graphs cmd.base = some g →
      (∀ w s1 t, n < db h 63 32 → agtWaits s (cmd.agt cid) false (va + BitVec.ofNat 64 (32 + 4 * n)) 4 = none →
        streamRead s (cmd.agt cid) cmd (va + BitVec.ofNat 64 (32 + 4 * n)) 4 = .ok (w, s1) → wordWaits s1 g w = false →
        applyWord s1 cid cmd g w = .ok t → exec (.cfgStreamApply cid) s = .next (updCtx t cid (fun c => { c with
          cfg := { cmd with op := .stream va (some h) (n + 1) } :: c.cfg.drop 1 }))) ∧
      (db h 63 32 ≤ n → cidReads s cid = false → enabledIn s cmd.base = g.elems →
        exec (.cfgStreamApply cid) s = .next (cfgPop s cid)))) ∧
  (∀ (s : State) (k base : Nat), Powered s →
    ((elemAt s k).reading = none → exec (.paramBlockRead k) s = .next s) ∧
    (∀ r bs s1 t, (elemAt s k).reading = some r →
      paramBytes s (getD (elemAt s k).addrs 0 0x11) (blockLen (kindAt s (k / 4))) r.cmd.super = .ok (bs, s1) →
      takeBlock s1 k bs r.cmd.super = .ok t → exec (.paramBlockRead k) s = .next t) ∧
    ((elemAt s k).coming = 0 → exec (.startTokenArrive k) s = .next s) ∧
    ((elemAt s k).coming ≠ 0 → (elemAt s k).waiting = true → exec (.startTokenArrive k) s =
      .next (updElem s k (fun e => { e with coming := e.coming - 1, waiting := false, done := false }))) ∧
    ((elemAt s k).coming ≠ 0 → (elemAt s k).waiting = false → exec (.startTokenArrive k) s =
      .next (updElem s k (fun e => { e with coming := e.coming - 1, held := true }))) ∧
    (∀ b g fut, graphAt s (k / 4) = some (b, g) → g.freezing = some (fut, true) → (elemAt s k).marked = false →
      (fld s k 1).testBit 0 = true → kindAt s (k / 4) ≠ 0xA → markInputs s k b = [] → (elemAt s k).outq = [] →
      (isSource s k = true ∨ stillWorks s k = false) →
      ∃ t, exec (.roundMarkerReceive k) s = .next t ∧ (elemAt t k).marked = true ∧ (∀ j ≠ k, elemAt t j = elemAt s j) ∧
        t.mem = s.mem ∧ t.cx = s.cx) ∧
    (∀ g, look s.fab.graphs base = some g →
      (g.freezing = none → exec (.graphFreezeComplete base) s = .next s) ∧
      (∀ fut s1, g.freezing = some (fut, false) → readoutWaits s base g = some s1 →
        exec (.graphFreezeComplete base) s = .next s1) ∧
      (∀ fut, g.freezing = some (fut, false) → readoutWaits s base g = none → exec (.graphFreezeComplete base) s = .next (finishFreeze
        ((graphElems s base).foldl (fun s k => if kindAt s (k / 4) = 0xA then stopCell s (k / 4) else s) (freezeGraph s base))
        base g fut)) ∧
      (g.thawing = none → g.lost = false → exec (.graphThawComplete base) s = .next s) ∧
      (g.thawing = none → g.freezing = none → g.lost = true →
        (rmwDone s base g = false ∨ placesFor s base g = []) →
        exec (.graphThawComplete base) s = .next (graphFault (updGraph s base (fun g => { g with lost := false })) base
          (faultAt cECC (BitVec.ofNat 64 base)))) ∧
      (∀ p b, g.thawing = none → g.freezing = none → g.lost = true → rmwDone s base g = true → placesFor s base g = [p] →
        b = 2 ^ 30 * g.die + 2 ^ 18 * (48 * p.2 + p.1) →
        exec (.graphThawComplete base) s = .next (runGraph (moveGraph ((graphElems { s with draws := s.draws + 1 } base).foldl
          (fun s k => if kindAt s (k / 4) = 0xA then stopCell s (k / 4) else s) { s with draws := s.draws + 1 })
          base b g { g with col := p.1, row := p.2, lost := false }) b)) ∧
      (∀ fut t, g.thawing = some fut → g.rbuf = 0 →
        t = cfgUnmark (updGraph (unitDone s (graphAgt g.die base)) base (fun g => { g with thawing := none })) base →
        exec (.graphThawComplete base) s = .next (graphFuture ((graphElems t base).foldl
          (fun s k => updElem s k (fun e => { e with frozen := false, marked := false, marks := [] }))
          (updGraph t base (fun g => { g with frozen := false }))) base fut g.super)))) ∧
  (∀ (s : State) (c : Nat), Powered s →
    (∀ site e, (circuitAt s c).deliver = [] → (circuitAt s c).window = [] → (circuitAt s c).src = some site → iopEnd s site c false = some e → e.pkg ≠ ownPkg s →
      (∀ i, (circuitAt s c).buf.findIdx? closesPacket = some i → exec (.circuitSourceSend c) s = .next (circuitSend s c (min (i + 1) 12))) ∧
      ((circuitAt s c).buf.findIdx? closesPacket = none → (circuitAt s c).buf.length < 12 →
        exec (.circuitSourceSend c) s = .next s) ∧
      (∀ n, (circuitAt s c).unacked.length < 32 → injectRoom s 1 = true → e.pkg < sysSize s →
        circuitSend s c n = inject (updCircuit s c (fun x => { x with
            buf := x.buf.drop n, nextSeq := (x.nextSeq + 1) % 65536, unacked := x.unacked ++ [(x.nextSeq, x.buf.take n)] }))
          { packetTo s e.pkg e.die 1 with circ := some (c, (circuitAt s c).nextSeq, (circuitAt s c).buf.take n) } true)) ∧
    (((circuitAt s c).buf = [] ∨ s.cycle < (circuitAt s c).since + 32) → exec (.circuitFlushTimer c) s = .next s) ∧
    ((circuitAt s c).buf ≠ [] → (circuitAt s c).since + 32 ≤ s.cycle →
      exec (.circuitFlushTimer c) s = .next (circuitSend s c (min (circuitAt s c).buf.length 12))) ∧
    (∀ site e seq ts, (circuitAt s c).dst = some site → iopEnd s site c true = some e → seq < 65536 → ts ≠ [] → ts.length ≤ 12 →
      (32 ≤ (seq + 65536 - (circuitAt s c).expect) % 65536 → exec (.circuitPacketArrive c seq ts) s = .next s) ∧
      ((circuitAt s c).deliver = [] → (circuitAt s c).window = [] → seq ≠ (circuitAt s c).expect →
        (seq + 65536 - (circuitAt s c).expect) % 65536 < 32 → exec (.circuitPacketArrive c seq ts) s =
          .next (updCircuit s c (fun x => { x with window := [(seq, ts)] }))) ∧
      (∀ t, (circuitAt s c).deliver = [] → (circuitAt s c).window = [] → seq = (circuitAt s c).expect →
        e.pkg ≠ ownPkg s → e.pkg < sysSize s →
        t = inject (updCircuit s c (fun x => { x with window := [], expect := (seq + 1) % 65536, deliver := ts }))
          { packetTo s e.pkg e.die 1 with circ := some (c, seq, []) } false →
        roomAt t (circuitDest t site e) = 0 → iopEnd t site c true = some e → exec (.circuitPacketArrive c seq ts) s = .next t)) ∧
    (∀ seq, exec (.circuitAcknowledgement c seq) s =
      .next (updCircuit s c (fun x => { x with unacked := x.unacked.filter (fun u => u.1 ≠ seq) }))))

/-- R334, R407-R417: an active message's payload is written and its launch queued; a mirror point closes and is acknowledged, and
a recovered package starts from it; a host's access of a register is made and answered, or is dropped for want of HSEM, or is an
unsupported request; a host's access of HBM is made at its home and answered, with poison where a line read is poisoned; a failed request faults its requester; a link's loss releases HSEM. What the model reads into the
rules is log 36. -/
def Obligations.HostEvents : Prop :=
  ∀ (s : State), Powered s →
    (∀ m : Message, (m.pkg ≠ ownPkg s → exec (.activeMessageArrive m) s = .next s) ∧
      (∀ e, m.pkg = ownPkg s → (dispAt s (m.die % 4)).cancelled = false → pk m.packet 7 0 = 1 → launchBad s m.packet = false →
        pk m.packet 9 8 ≠ 2 → tsTooLow s (pkDom m.packet) (pkTs m.packet) = false → handlerEntry s (m.die % 4) (pkHidx m.packet) = .ok e →
        (m.payload = [] → exec (.activeMessageArrive m) s = .next (enqueueSpawn (entryNote s (m.die % 4) (pkHidx m.packet)) (m.die % 4) m.packet (pkTs m.packet)
          (pk m.packet 24 22) none false false e)) ∧
        (∀ a, a = payloadAddr m.packet → m.payload ≠ [] → a % 64 = 0 → sPlace s a = .bank →
          siteKey a = siteKey (a + m.payload.length - 1) → a + m.payload.length ≤ 2 ^ 32 → m.super = true →
          exec (.activeMessageArrive m) s = .next (enqueueSpawn (entryNote
              (unitWrite s false { super := true, ident := none } a m.payload false) (m.die % 4) (pkHidx m.packet))
            (m.die % 4) m.packet (pkTs m.packet) (pk m.packet 24 22) none false false e)))) ∧
    ((dev s 0x100900).testBit 0 = false → exec .mirrorPoint s = .next s) ∧
    ((dev s 0x100900).testBit 0 = true → s.host.points = s.host.pointsDone →
      s.host.pointAt + 2 ^ bits (regView s 0x100900) 18 14 ≤ s.cycle → exec .mirrorPoint s = .next { s with host := { s.host with
        points := s.host.points + 1, pointAt := s.cycle, pointSnap := some { snapOf s (coveredMem s) with
          live := liveNow s, engines := rewound s, tags := s.tags.filter (fun t => covered s (8 * t.1))
          poison := s.poison.filter (fun t => covered s (8 * t.1))
          linePoison := s.linePoison.filter (fun t => covered s (64 * t.1)) } } }) ∧
    exec .mirrorPointAck s = .next (if s.host.points = s.host.pointsDone then s
      else { s with host := { s.host with pointsDone := s.host.points, mirror := s.host.pointSnap } }) ∧
    (∀ p, (s.host.mirror = none ∨ p ≠ ownPkg s) → exec (.packageLossRecovery p) s = .next s) ∧
    (∀ m, s.host.mirror = some m → m.live = [] → ∃ t, exec (.packageLossRecovery (ownPkg s)) s = .next t ∧ t.mem = m.mem ∧
      t.fab.elems = m.fab.elems ∧ t.fab.cells = m.fab.cells ∧ t.fab.graphs = m.fab.graphs ∧ t.tags = m.tags ∧
      t.poison = m.poison ∧ t.linePoison = m.linePoison ∧ t.engines = m.engines ∧ t.live = [] ∧ t.cx = Ctx.reset ∧ t.others = [] ∧ t.siteMap = s.siteMap ∧
      t.fmap = s.fmap) ∧
    (∀ a : HostAcc, a.port < 2 → (a.size = 4 ∨ a.size = 8) → a.off % a.size = 0 → regAssigned a.off = true →
      (a.write = none → exec (.hostBarAccess a) s =
        .next (answer (regRead s a.off a.size).2 a.port (.data (regRead s a.off a.size).1))) ∧
      (∀ v, a.write = some v → a.expected = none → a.off / 8 * 8 ≠ 0x100A00 →
        (∀ t, dev s 0x100A00 % 4 = a.port + 1 → regWrite s a.off a.size v = .ok t →
          exec (.hostBarAccess a) s = .next (answer t a.port .done)) ∧
        (dev s 0x100A00 % 4 ≠ a.port + 1 → dev s 0x100A00 / 2 ^ 32 % 2 ^ 16 ≠ 0xFFFF → exec (.hostBarAccess a) s =
          .next (answer (setDev s 0x100A00 (BitVec.ofNat 64 (dev s 0x100A00 + 2 ^ 32))) a.port .done))) ∧
      (∀ v e old, a.write = some v → a.expected = some e → a.off / 8 * 8 ≠ 0x100A00 →
        old = regView s (a.off / 8 * 8) / 2 ^ (8 * (a.off % 8)) % 2 ^ (8 * a.size) →
        (old = e % 2 ^ (8 * a.size) → exec (.hostBarAccess a) s = .next (answer (hostWrite s a v) a.port (.data old))) ∧
        (old ≠ e % 2 ^ (8 * a.size) → exec (.hostBarAccess a) s = .next (answer s a.port (.data old)))) ∧
      (∀ v e, a.write = some v → a.expected = some e → a.off = 0x100A00 → a.size = 4 → exec (.hostBarAccess a) s =
        .next (answer (hsemCas s (if a.port = 0 then .p0 else .p1) (e % 2 ^ 32) (v % 2 ^ 32)).2 a.port
          (.data (regView s 0x100A00 % 2 ^ 32))))) ∧
    (∀ a : HostAcc, a.port < 2 → (a.off % a.size ≠ 0 ∨ (a.size ≠ 4 ∧ a.size ≠ 8)) →
      exec (.hostBarAccess a) s = .next (answer s a.port .unsupported)) ∧
    (∀ a : HostAcc, a.port < 2 → (a.size = 4 ∨ a.size = 8) → a.off % a.size = 0 → regAssigned a.off = false →
      (a.write = none → exec (.hostBarAccess a) s = .next (answer s a.port (.data 0))) ∧
      (∀ v, a.write = some v → a.expected = none → exec (.hostBarAccess a) s = .next (answer s a.port .done))) ∧
    (∀ a : HostAcc, a.port < 2 → getD s.host.up false a.port = true → 0 < a.size → a.off % 64 + a.size ≤ 64 → a.off + a.size ≤ 2 ^ 39 →
      (∀ bs t, a.write = none → a.expected = none → mirrored s = true → homeRead s (locHbm a.off) a.size = (bs, t) →
        exec (.cxlMemAccess a) s = .next (answer
          { t with host := { t.host with held := put t.host.held (locHbm a.off / 64) a.port } } a.port
          (if poisoned t (locHbm a.off) a.size then .poison else .data (natOfBytes bs)))) ∧
      (∀ v, a.write = some v → a.expected = none → ∃ t, exec (.cxlMemAccess a) s = .next t ∧
        t.mem = (homeWrite s (locHbm a.off) (bytesOfNat a.size v)).mem ∧ t.cx = (homeWrite s (locHbm a.off) (bytesOfNat a.size v)).cx ∧
        getD t.host.held a.port (locHbm a.off / 64) = a.port ∧ ∃ as, t.host.answers = as ++ [(a.port, .done)]) ∧
      (a.expected ≠ none → exec (.cxlMemAccess a) s = .next s)) ∧
    (∀ r, exec (.cxlRequestTimeout r) s = .next { s with host := { s.host with bad := s.host.bad ++ [r] } } ∧
      exec (.cxlRequestCompletion r false) s = .next { s with host := { s.host with bad := s.host.bad ++ [r] } } ∧
      exec (.cxlRequestCompletion r true) s = .next s) ∧
    (∀ p < 2, ((dev s 0x100A18).testBit 1 = true →
        exec (.hostLinkUp p) s = .next { s with host := { s.host with up := setD s.host.up false p true } }) ∧
      ((dev s 0x100A18).testBit 1 = false → exec (.hostLinkUp p) s = .next s) ∧
      exec (.hostLinkDown p) s = .next (let t := { s with host := { s.host with up := setD s.host.up false p false } }
        if dev s 0x100A00 % 4 = p + 1 then setDev t 0x100A00 (BitVec.ofNat 64 (dev s 0x100A00 / 2 ^ 32 * 2 ^ 32 +
          (dev s 0x100A00 / 2 ^ 16 % 2 ^ 16 + 1) % 65536 * 2 ^ 16)) else t)) ∧
    (∀ die, ((∀ h ∈ s.host.held, homeDie (64 * h.1) ≠ die) → exec (.bisnpResponse die) s = .next s) ∧
      (∀ h, s.host.held.find? (fun h => homeDie (64 * h.1) = die) = some h → exec (.bisnpResponse die) s =
        .next { s with host := { s.host with held := del s.host.held h.1 } }))

/-- R248-R255, R418-R429: a packet takes its hop whole where the far pool has room, or flit by flit in class E, or waits; one that arrives
returns credits, takes effect and is answered, or goes on, and one for no package is dropped and counted; links train once HBM has, count
replays and go down below 4 lanes; power-on
reset leaves the reset state with the fuses' sites; an object is placed, or rejected with a status. The site arrangement is
the model's choice (log 5); where an object is placed is given with it (log 27); what the model reads into the rules is log
36. -/
def Obligations.LinksPowerAndLoader : Prop :=
  (∀ (s : State) (f : List (Nat × Nat)), ∃ t, exec (.powerOnReset f) s = .next t ∧
    t = { State.reset with draws := s.draws, siteMap := t.siteMap, fmap := t.fmap } ∧ (f = [] → t.siteMap = [] ∧ t.fmap = [])) ∧
  (∀ (s : State) (port id : Nat), Powered s →
    (∀ p d, s.host.pkts.find? (fun p => p.id = id) = some p → hopOf s p = some (d, port) →
      s.host.pkts.find? (fun q => (hopOf s q).map (·.2) = some port) = some p →
      (∀ q ∈ s.host.pkts, (hopOf s q).map (·.2) = some port → q.link = none) → p.need ≤ s.host.pointsDone →
      p.pkt.e = false → p.pkt.par = false → dateline s port = false →
      (getD s.host.used 0 (3 * port) + p.pkt.len ≤ 16 →
        exec (.packetHop id) s = .next (sendFlits s port 0 p.pkt.len p false false)) ∧
      (16 < getD s.host.used 0 (3 * port) + p.pkt.len → getD s.host.used 0 (3 * port + 1) < 4 → exec (.packetHop id) s =
        .next (sendFlits s port 1 (min (p.pkt.len - p.sent) (4 - getD s.host.used 0 (3 * port + 1))) p false true)) ∧
      (16 < getD s.host.used 0 (3 * port) + p.pkt.len → 4 ≤ getD s.host.used 0 (3 * port + 1) → exec (.packetHop id) s = .next s)) ∧
    (∀ (p : LinkPkt) k n e, p.inp = 12 →
      (p.pkt.len ≤ p.sent + n → sendFlits s port k n p false e = { s with host := { s.host with
        pkts := s.host.pkts.filter (fun q => q.id ≠ p.id)
        left := s.host.left ++ [(port, { p.pkt with
          par := false, e := e, tag := if ownReq s p.pkt then freeTag s else p.pkt.tag, ret := owedTo s port })]
        used := put s.host.used (3 * port + k) (getD s.host.used 0 (3 * port + k) + n)
        owed := s.host.owed.filter (fun o => o.1 / 3 ≠ port)
        asked := if ownReq s p.pkt then s.host.asked ++ [(freeTag s, reqLines p.pkt)] else s.host.asked } }) ∧
      (p.sent + n < p.pkt.len → sendFlits s port k n p false e = { s with host := { s.host with
        used := put s.host.used (3 * port + k) (getD s.host.used 0 (3 * port + k) + n)
        pkts := s.host.pkts.map (fun q => if q.id = p.id then { q with link := some port, sent := p.sent + n } else q) } })) ∧
    (s.host.pkts.find? (fun p => p.id = id) = none → exec (.packetHop id) s = .next s) ∧
    (∀ p, s.host.pkts.find? (fun p => p.id = id) = some p → (outside s p = true ∨ p.link = none ∧ reqHeld s p = true) →
      exec (.packetHop id) s = .next s) ∧
    (∀ p : Packet, port < 12 → linkUp s port = true → p.ret = [] →
      ((p.reserved = true ∨ sysSize s ≤ p.dst) → exec (.packetArrive port p) s =
        .next (owe (countLink s port 32) port (bufOf p) p.len)) ∧
      (p.reserved = false → p.dst < sysSize s → p.dst ≠ ownPkg s → (p.e = false → bufUsed s port 0 + p.len ≤ 16) →
        (p.e = true → bufUsed s port (bufOf p) < 4) → exec (.packetArrive port p) s = .next { s with
          host := { s.host with
            pkts := s.host.pkts ++ [{ id := s.host.pktNext, pkt := p, dim := port / 4, need := 0, inp := port, link := none, sent := 0 }]
            pktNext := s.host.pktNext + 1 } }) ∧
      (p.reserved = false → p.dst < sysSize s → p.dst = ownPkg s → p.msg = none → p.circ = none → p.acc = none →
        exec (.packetArrive port p) s = .next (owe { s with
          host := { s.host with asked := s.host.asked.filter (fun a => a.1 ≠ p.tag) } } port (bufOf p) p.len)) ∧
      (∀ m, p.reserved = false → p.dst < sysSize s → p.dst = ownPkg s → p.msg = some m → p.circ = none → p.acc = none →
        exec (.packetArrive port p) s = .next (messageArrive (owe s port (bufOf p) p.len) { m with pkg := p.dst, die := p.die })) ∧
      (∀ a u, p.reserved = false → p.dst < sysSize s → p.dst = ownPkg s → p.msg = none → p.circ = none → p.acc = some a →
        u = owe s port (bufOf p) p.len → p.src < sysSize s → exec (.packetArrive port p) s =
          .next (inject (if p.mirror then mirrorServe u p a else peerServe u a)
            { packetTo u p.src p.sdie (if a.kind = 0 ∧ 64 < a.len then 2 else 1) with
              tag := p.tag, sdie := homeDie (locHbm a.off) } true))) ∧
    (∀ p : Packet, linkUp s port = false → exec (.packetArrive port p) s = .next s) ∧
    (port < 12 → exec (.flitCrcReplay port) s = .next (countLink s port 16)) ∧
    (port < 12 → ∀ n, bits (dev s (0x100B00 + 8 * port)) 4 1 = n → 0 < n → exec (.laneFailRestripe port) s =
      .next (setLink s port (n - 1) (linkUp s port && decide (5 ≤ n)))) ∧
    (∀ lanes, port < 12 → 4 ≤ lanes → lanes ≤ 8 → (dev s 0x100A10).testBit 26 = true → ownPkg s < sysSize s →
      2 ≤ dimSize s (port / 4) → (dev s 0x100A18).testBit 1 = true →
      exec (.linkTrained port lanes) s = .next (setLink s port lanes true)) ∧
    (∀ lanes, port < 12 → lanes < 4 → (dev s 0x100A10).testBit 26 = true → ownPkg s < sysSize s →
      2 ≤ dimSize s (port / 4) → (dev s 0x100A18).testBit 1 = true → s.host.booted = false →
      exec (.linkTrained port lanes) s = .next (let t := setBoot (setLink s port lanes false) 2
        { t with host := { t.host with failed := true } })) ∧
    (∀ lanes, (dev s 0x100A18).testBit 1 = false → exec (.linkTrained port lanes) s = .next s) ∧
    exec .hbmTrainingDone s = .next (if (dev s 0x100A18).testBit 1 then s
      else setDev s 0x100A18 (BitVec.ofNat 64 (dev s 0x100A18 + 2)))) ∧
  (∀ (s : State) (obj : CodeObject) (sites : List (Nat × Nat)), Powered s →
    (headerOk obj.bytes = false → exec (.loaderLoadObject obj) s = .next { s with host := { s.host with
        objects := s.host.objects + 1, status := s.host.status ++ [(cBADOBJ, s.host.objects, 0)] } } ∧
      exec (.molrougEmbed obj sites) s = exec (.loaderLoadObject obj) s) ∧
    (headerOk obj.bytes = true → isMolr obj.bytes = false → exec (.molrougEmbed obj sites) s = .next s ∧
      (∀ t, loadWith s obj (laterObjects obj) some some = .ok t → exec (.loaderLoadObject obj) s =
        .next { t with host := { t.host with objects := t.host.objects + 1 } }) ∧
      (∀ c n, loadWith s obj (laterObjects obj) some some = .error (c, n) → exec (.loaderLoadObject obj) s = .next { s with
        host := { s.host with objects := s.host.objects + 1, status := s.host.status ++ [(c, s.host.objects, n)] } })) ∧
    (headerOk obj.bytes = true → isMolr obj.bytes = true → exec (.loaderLoadObject obj) s = .next s ∧
      (∀ t, loadWith s obj (laterObjects obj) (fun v => (look sites v).map (· % 2304)) (embedModule s sites) = .ok t →
        exec (.molrougEmbed obj sites) s = .next { t with host := { t.host with objects := t.host.objects + 1 } }) ∧
      (∀ c n, loadWith s obj (laterObjects obj) (fun v => (look sites v).map (· % 2304)) (embedModule s sites) = .error (c, n) →
        exec (.molrougEmbed obj sites) s = .next { s with
          host := { s.host with objects := s.host.objects + 1, status := s.host.status ++ [(c, s.host.objects, n)] } })))
end

