-- ==== Sys2Proof/Laws/Exec.lean ====
section
/-! SUPPORT. Each instruction's and event's meaning, by name: what exec is at each constructor. -/

namespace Sys2Proof.Machine
open Sys2Proof

@[simp] theorem exec_add (o : OpR) (s : State) : exec (.add o) s = execAdd o s := rfl
@[simp] theorem exec_sub (o : OpR) (s : State) : exec (.sub o) s = execSub o s := rfl
@[simp] theorem exec_mul (o : OpR) (s : State) : exec (.mul o) s = execMul o s := rfl
@[simp] theorem exec_mulhi (o : OpR) (s : State) : exec (.mulhi o) s = execMulhi o s := rfl
@[simp] theorem exec_mulhiu (o : OpR) (s : State) : exec (.mulhiu o) s = execMulhiu o s := rfl
@[simp] theorem exec_div (o : OpR) (s : State) : exec (.div o) s = execDiv o s := rfl
@[simp] theorem exec_divu (o : OpR) (s : State) : exec (.divu o) s = execDivu o s := rfl
@[simp] theorem exec_rem (o : OpR) (s : State) : exec (.rem o) s = execRem o s := rfl
@[simp] theorem exec_remu (o : OpR) (s : State) : exec (.remu o) s = execRemu o s := rfl
@[simp] theorem exec_and (o : OpR) (s : State) : exec (.and o) s = execAnd o s := rfl
@[simp] theorem exec_or (o : OpR) (s : State) : exec (.or o) s = execOr o s := rfl
@[simp] theorem exec_xor (o : OpR) (s : State) : exec (.xor o) s = execXor o s := rfl
@[simp] theorem exec_shl (o : OpR) (s : State) : exec (.shl o) s = execShl o s := rfl
@[simp] theorem exec_shr (o : OpR) (s : State) : exec (.shr o) s = execShr o s := rfl
@[simp] theorem exec_sra (o : OpR) (s : State) : exec (.sra o) s = execSra o s := rfl
@[simp] theorem exec_shli (o : OpR) (s : State) : exec (.shli o) s = execShli o s := rfl
@[simp] theorem exec_shri (o : OpR) (s : State) : exec (.shri o) s = execShri o s := rfl
@[simp] theorem exec_srai (o : OpR) (s : State) : exec (.srai o) s = execSrai o s := rfl
@[simp] theorem exec_slt (o : OpR) (s : State) : exec (.slt o) s = execSlt o s := rfl
@[simp] theorem exec_sltu (o : OpR) (s : State) : exec (.sltu o) s = execSltu o s := rfl
@[simp] theorem exec_min (o : OpR) (s : State) : exec (.min o) s = execMin o s := rfl
@[simp] theorem exec_max (o : OpR) (s : State) : exec (.max o) s = execMax o s := rfl
@[simp] theorem exec_minu (o : OpR) (s : State) : exec (.minu o) s = execMinu o s := rfl
@[simp] theorem exec_maxu (o : OpR) (s : State) : exec (.maxu o) s = execMaxu o s := rfl
@[simp] theorem exec_sel (o : OpR) (s : State) : exec (.sel o) s = execSel o s := rfl
@[simp] theorem exec_lea0 (o : OpR) (s : State) : exec (.lea0 o) s = execLea0 o s := rfl
@[simp] theorem exec_lea1 (o : OpR) (s : State) : exec (.lea1 o) s = execLea1 o s := rfl
@[simp] theorem exec_lea2 (o : OpR) (s : State) : exec (.lea2 o) s = execLea2 o s := rfl
@[simp] theorem exec_lea3 (o : OpR) (s : State) : exec (.lea3 o) s = execLea3 o s := rfl
@[simp] theorem exec_clz (o : OpR) (s : State) : exec (.clz o) s = execClz o s := rfl
@[simp] theorem exec_ctz (o : OpR) (s : State) : exec (.ctz o) s = execCtz o s := rfl
@[simp] theorem exec_popc (o : OpR) (s : State) : exec (.popc o) s = execPopc o s := rfl
@[simp] theorem exec_sxtB (o : OpR) (s : State) : exec (.sxtB o) s = execSxtB o s := rfl
@[simp] theorem exec_sxtH (o : OpR) (s : State) : exec (.sxtH o) s = execSxtH o s := rfl
@[simp] theorem exec_sxtW (o : OpR) (s : State) : exec (.sxtW o) s = execSxtW o s := rfl
@[simp] theorem exec_zxtB (o : OpR) (s : State) : exec (.zxtB o) s = execZxtB o s := rfl
@[simp] theorem exec_zxtH (o : OpR) (s : State) : exec (.zxtH o) s = execZxtH o s := rfl
@[simp] theorem exec_zxtW (o : OpR) (s : State) : exec (.zxtW o) s = execZxtW o s := rfl
@[simp] theorem exec_addi (o : OpI) (s : State) : exec (.addi o) s = execAddi o s := rfl
@[simp] theorem exec_andi (o : OpI) (s : State) : exec (.andi o) s = execAndi o s := rfl
@[simp] theorem exec_ori (o : OpI) (s : State) : exec (.ori o) s = execOri o s := rfl
@[simp] theorem exec_xori (o : OpI) (s : State) : exec (.xori o) s = execXori o s := rfl
@[simp] theorem exec_slti (o : OpI) (s : State) : exec (.slti o) s = execSlti o s := rfl
@[simp] theorem exec_bfx (o : OpBf) (s : State) : exec (.bfx o) s = execBfx o s := rfl
@[simp] theorem exec_bfxS (o : OpBf) (s : State) : exec (.bfxS o) s = execBfxS o s := rfl
@[simp] theorem exec_bfi (o : OpBf) (s : State) : exec (.bfi o) s = execBfi o s := rfl
@[simp] theorem exec_lih (o : OpU) (s : State) : exec (.lih o) s = execLih o s := rfl
@[simp] theorem exec_addpc (o : OpU) (s : State) : exec (.addpc o) s = execAddpc o s := rfl
@[simp] theorem exec_beq (o : OpB) (s : State) : exec (.beq o) s = execBeq o s := rfl
@[simp] theorem exec_bne (o : OpB) (s : State) : exec (.bne o) s = execBne o s := rfl
@[simp] theorem exec_blt (o : OpB) (s : State) : exec (.blt o) s = execBlt o s := rfl
@[simp] theorem exec_bge (o : OpB) (s : State) : exec (.bge o) s = execBge o s := rfl
@[simp] theorem exec_bltu (o : OpB) (s : State) : exec (.bltu o) s = execBltu o s := rfl
@[simp] theorem exec_bgeu (o : OpB) (s : State) : exec (.bgeu o) s = execBgeu o s := rfl
@[simp] theorem exec_bqe (o : OpBx) (s : State) : exec (.bqe o) s = execBqe o s := rfl
@[simp] theorem exec_bpa (o : OpBx) (s : State) : exec (.bpa o) s = execBpa o s := rfl
@[simp] theorem exec_bpn (o : OpBx) (s : State) : exec (.bpn o) s = execBpn o s := rfl
@[simp] theorem exec_loop (o : OpBx) (s : State) : exec (.loop o) s = execLoop o s := rfl
@[simp] theorem exec_jmp (o : OpJ) (s : State) : exec (.jmp o) s = execJmp o s := rfl
@[simp] theorem exec_call (o : OpJ) (s : State) : exec (.call o) s = execCall o s := rfl
@[simp] theorem exec_jmpr (o : OpR) (s : State) : exec (.jmpr o) s = execJmpr o s := rfl
@[simp] theorem exec_callr (o : OpR) (s : State) : exec (.callr o) s = execCallr o s := rfl
@[simp] theorem exec_ret (o : OpR) (s : State) : exec (.ret o) s = execRet o s := rfl
@[simp] theorem exec_enter (o : OpR) (s : State) : exec (.enter o) s = execEnter o s := rfl
@[simp] theorem exec_leave (o : OpR) (s : State) : exec (.leave o) s = execLeave o s := rfl
@[simp] theorem exec_pand (o : OpR) (s : State) : exec (.pand o) s = execPand o s := rfl
@[simp] theorem exec_por (o : OpR) (s : State) : exec (.por o) s = execPor o s := rfl
@[simp] theorem exec_pxor (o : OpR) (s : State) : exec (.pxor o) s = execPxor o s := rfl
@[simp] theorem exec_pnot (o : OpR) (s : State) : exec (.pnot o) s = execPnot o s := rfl
@[simp] theorem exec_pcnt (o : OpR) (s : State) : exec (.pcnt o) s = execPcnt o s := rfl
@[simp] theorem exec_pseti (o : OpPset) (s : State) : exec (.pseti o) s = execPseti o s := rfl
@[simp] theorem exec_ldf (o : OpR) (s : State) : exec (.ldf o) s = execLdf o s := rfl
@[simp] theorem exec_ldfC (o : OpR) (s : State) : exec (.ldfC o) s = execLdfC o s := rfl
@[simp] theorem exec_ste (o : OpR) (s : State) : exec (.ste o) s = execSte o s := rfl
@[simp] theorem exec_fesetF (o : OpR) (s : State) : exec (.fesetF o) s = execFesetF o s := rfl
@[simp] theorem exec_fesetE (o : OpR) (s : State) : exec (.fesetE o) s = execFesetE o s := rfl
@[simp] theorem exec_feqry (o : OpR) (s : State) : exec (.feqry o) s = execFeqry o s := rfl
@[simp] theorem exec_pref (o : OpR) (s : State) : exec (.pref o) s = execPref o s := rfl
@[simp] theorem exec_vld (o : OpR) (s : State) : exec (.vld o) s = execVld o s := rfl
@[simp] theorem exec_vst (o : OpR) (s : State) : exec (.vst o) s = execVst o s := rfl
@[simp] theorem exec_vldst (o : OpR) (s : State) : exec (.vldst o) s = execVldst o s := rfl
@[simp] theorem exec_vgath (o : OpR) (s : State) : exec (.vgath o) s = execVgath o s := rfl
@[simp] theorem exec_vscat (o : OpR) (s : State) : exec (.vscat o) s = execVscat o s := rfl
@[simp] theorem exec_stbm (o : OpR) (s : State) : exec (.stbm o) s = execStbm o s := rfl
@[simp] theorem exec_ldbm (o : OpR) (s : State) : exec (.ldbm o) s = execLdbm o s := rfl
@[simp] theorem exec_fence (o : OpR) (s : State) : exec (.fence o) s = execFence o s := rfl
@[simp] theorem exec_fenceq (o : OpR) (s : State) : exec (.fenceq o) s = execFenceq o s := rfl
@[simp] theorem exec_synci (o : OpR) (s : State) : exec (.synci o) s = execSynci o s := rfl
@[simp] theorem exec_prefS (o : OpR) (s : State) : exec (.prefS o) s = execPrefS o s := rfl
@[simp] theorem exec_vldS (o : OpR) (s : State) : exec (.vldS o) s = execVldS o s := rfl
@[simp] theorem exec_vstS (o : OpR) (s : State) : exec (.vstS o) s = execVstS o s := rfl
@[simp] theorem exec_vldstS (o : OpR) (s : State) : exec (.vldstS o) s = execVldstS o s := rfl
@[simp] theorem exec_vgathS (o : OpR) (s : State) : exec (.vgathS o) s = execVgathS o s := rfl
@[simp] theorem exec_vscatS (o : OpR) (s : State) : exec (.vscatS o) s = execVscatS o s := rfl
@[simp] theorem exec_stbmS (o : OpR) (s : State) : exec (.stbmS o) s = execStbmS o s := rfl
@[simp] theorem exec_ldbmS (o : OpR) (s : State) : exec (.ldbmS o) s = execLdbmS o s := rfl
@[simp] theorem exec_amoAddW (o : OpR) (s : State) : exec (.amoAddW o) s = execAmoAddW o s := rfl
@[simp] theorem exec_amoMinW (o : OpR) (s : State) : exec (.amoMinW o) s = execAmoMinW o s := rfl
@[simp] theorem exec_amoMaxW (o : OpR) (s : State) : exec (.amoMaxW o) s = execAmoMaxW o s := rfl
@[simp] theorem exec_amoMinuW (o : OpR) (s : State) : exec (.amoMinuW o) s = execAmoMinuW o s := rfl
@[simp] theorem exec_amoMaxuW (o : OpR) (s : State) : exec (.amoMaxuW o) s = execAmoMaxuW o s := rfl
@[simp] theorem exec_amoAndW (o : OpR) (s : State) : exec (.amoAndW o) s = execAmoAndW o s := rfl
@[simp] theorem exec_amoOrW (o : OpR) (s : State) : exec (.amoOrW o) s = execAmoOrW o s := rfl
@[simp] theorem exec_amoXorW (o : OpR) (s : State) : exec (.amoXorW o) s = execAmoXorW o s := rfl
@[simp] theorem exec_amoSwapW (o : OpR) (s : State) : exec (.amoSwapW o) s = execAmoSwapW o s := rfl
@[simp] theorem exec_amoFaddF32 (o : OpR) (s : State) : exec (.amoFaddF32 o) s = execAmoFaddF32 o s := rfl
@[simp] theorem exec_amoFaddBf16 (o : OpR) (s : State) : exec (.amoFaddBf16 o) s = execAmoFaddBf16 o s := rfl
@[simp] theorem exec_casW (o : OpR) (s : State) : exec (.casW o) s = execCasW o s := rfl
@[simp] theorem exec_amaxrstW (o : OpR) (s : State) : exec (.amaxrstW o) s = execAmaxrstW o s := rfl
@[simp] theorem exec_amoAddWS (o : OpR) (s : State) : exec (.amoAddWS o) s = execAmoAddWS o s := rfl
@[simp] theorem exec_amoMinWS (o : OpR) (s : State) : exec (.amoMinWS o) s = execAmoMinWS o s := rfl
@[simp] theorem exec_amoMaxWS (o : OpR) (s : State) : exec (.amoMaxWS o) s = execAmoMaxWS o s := rfl
@[simp] theorem exec_amoMinuWS (o : OpR) (s : State) : exec (.amoMinuWS o) s = execAmoMinuWS o s := rfl
@[simp] theorem exec_amoMaxuWS (o : OpR) (s : State) : exec (.amoMaxuWS o) s = execAmoMaxuWS o s := rfl
@[simp] theorem exec_amoAndWS (o : OpR) (s : State) : exec (.amoAndWS o) s = execAmoAndWS o s := rfl
@[simp] theorem exec_amoOrWS (o : OpR) (s : State) : exec (.amoOrWS o) s = execAmoOrWS o s := rfl
@[simp] theorem exec_amoXorWS (o : OpR) (s : State) : exec (.amoXorWS o) s = execAmoXorWS o s := rfl
@[simp] theorem exec_amoSwapWS (o : OpR) (s : State) : exec (.amoSwapWS o) s = execAmoSwapWS o s := rfl
@[simp] theorem exec_amoFaddF32S (o : OpR) (s : State) : exec (.amoFaddF32S o) s = execAmoFaddF32S o s := rfl
@[simp] theorem exec_amoFaddBf16S (o : OpR) (s : State) : exec (.amoFaddBf16S o) s = execAmoFaddBf16S o s := rfl
@[simp] theorem exec_casWS (o : OpR) (s : State) : exec (.casWS o) s = execCasWS o s := rfl
@[simp] theorem exec_amaxrstWS (o : OpR) (s : State) : exec (.amaxrstWS o) s = execAmaxrstWS o s := rfl
@[simp] theorem exec_amoAddD (o : OpR) (s : State) : exec (.amoAddD o) s = execAmoAddD o s := rfl
@[simp] theorem exec_amoMinD (o : OpR) (s : State) : exec (.amoMinD o) s = execAmoMinD o s := rfl
@[simp] theorem exec_amoMaxD (o : OpR) (s : State) : exec (.amoMaxD o) s = execAmoMaxD o s := rfl
@[simp] theorem exec_amoMinuD (o : OpR) (s : State) : exec (.amoMinuD o) s = execAmoMinuD o s := rfl
@[simp] theorem exec_amoMaxuD (o : OpR) (s : State) : exec (.amoMaxuD o) s = execAmoMaxuD o s := rfl
@[simp] theorem exec_amoAndD (o : OpR) (s : State) : exec (.amoAndD o) s = execAmoAndD o s := rfl
@[simp] theorem exec_amoOrD (o : OpR) (s : State) : exec (.amoOrD o) s = execAmoOrD o s := rfl
@[simp] theorem exec_amoXorD (o : OpR) (s : State) : exec (.amoXorD o) s = execAmoXorD o s := rfl
@[simp] theorem exec_amoSwapD (o : OpR) (s : State) : exec (.amoSwapD o) s = execAmoSwapD o s := rfl
@[simp] theorem exec_casD (o : OpR) (s : State) : exec (.casD o) s = execCasD o s := rfl
@[simp] theorem exec_amaxrstD (o : OpR) (s : State) : exec (.amaxrstD o) s = execAmaxrstD o s := rfl
@[simp] theorem exec_amoAddDS (o : OpR) (s : State) : exec (.amoAddDS o) s = execAmoAddDS o s := rfl
@[simp] theorem exec_amoMinDS (o : OpR) (s : State) : exec (.amoMinDS o) s = execAmoMinDS o s := rfl
@[simp] theorem exec_amoMaxDS (o : OpR) (s : State) : exec (.amoMaxDS o) s = execAmoMaxDS o s := rfl
@[simp] theorem exec_amoMinuDS (o : OpR) (s : State) : exec (.amoMinuDS o) s = execAmoMinuDS o s := rfl
@[simp] theorem exec_amoMaxuDS (o : OpR) (s : State) : exec (.amoMaxuDS o) s = execAmoMaxuDS o s := rfl
@[simp] theorem exec_amoAndDS (o : OpR) (s : State) : exec (.amoAndDS o) s = execAmoAndDS o s := rfl
@[simp] theorem exec_amoOrDS (o : OpR) (s : State) : exec (.amoOrDS o) s = execAmoOrDS o s := rfl
@[simp] theorem exec_amoXorDS (o : OpR) (s : State) : exec (.amoXorDS o) s = execAmoXorDS o s := rfl
@[simp] theorem exec_amoSwapDS (o : OpR) (s : State) : exec (.amoSwapDS o) s = execAmoSwapDS o s := rfl
@[simp] theorem exec_casDS (o : OpR) (s : State) : exec (.casDS o) s = execCasDS o s := rfl
@[simp] theorem exec_amaxrstDS (o : OpR) (s : State) : exec (.amaxrstDS o) s = execAmaxrstDS o s := rfl
@[simp] theorem exec_ldB (o : OpM) (s : State) : exec (.ldB o) s = execLdB o s := rfl
@[simp] theorem exec_ldH (o : OpM) (s : State) : exec (.ldH o) s = execLdH o s := rfl
@[simp] theorem exec_ldW (o : OpM) (s : State) : exec (.ldW o) s = execLdW o s := rfl
@[simp] theorem exec_ldD (o : OpM) (s : State) : exec (.ldD o) s = execLdD o s := rfl
@[simp] theorem exec_stB (o : OpM) (s : State) : exec (.stB o) s = execStB o s := rfl
@[simp] theorem exec_stH (o : OpM) (s : State) : exec (.stH o) s = execStH o s := rfl
@[simp] theorem exec_stW (o : OpM) (s : State) : exec (.stW o) s = execStW o s := rfl
@[simp] theorem exec_stD (o : OpM) (s : State) : exec (.stD o) s = execStD o s := rfl
@[simp] theorem exec_ldsB (o : OpM) (s : State) : exec (.ldsB o) s = execLdsB o s := rfl
@[simp] theorem exec_ldsH (o : OpM) (s : State) : exec (.ldsH o) s = execLdsH o s := rfl
@[simp] theorem exec_ldsW (o : OpM) (s : State) : exec (.ldsW o) s = execLdsW o s := rfl
@[simp] theorem exec_ldsD (o : OpM) (s : State) : exec (.ldsD o) s = execLdsD o s := rfl
@[simp] theorem exec_stsB (o : OpM) (s : State) : exec (.stsB o) s = execStsB o s := rfl
@[simp] theorem exec_stsH (o : OpM) (s : State) : exec (.stsH o) s = execStsH o s := rfl
@[simp] theorem exec_stsW (o : OpM) (s : State) : exec (.stsW o) s = execStsW o s := rfl
@[simp] theorem exec_stsD (o : OpM) (s : State) : exec (.stsD o) s = execStsD o s := rfl
@[simp] theorem exec_vaddF32 (o : OpR) (s : State) : exec (.vaddF32 o) s = execVaddF32 o s := rfl
@[simp] theorem exec_vsubF32 (o : OpR) (s : State) : exec (.vsubF32 o) s = execVsubF32 o s := rfl
@[simp] theorem exec_vmulF32 (o : OpR) (s : State) : exec (.vmulF32 o) s = execVmulF32 o s := rfl
@[simp] theorem exec_vfmaF32 (o : OpR) (s : State) : exec (.vfmaF32 o) s = execVfmaF32 o s := rfl
@[simp] theorem exec_vfmsF32 (o : OpR) (s : State) : exec (.vfmsF32 o) s = execVfmsF32 o s := rfl
@[simp] theorem exec_vminF32 (o : OpR) (s : State) : exec (.vminF32 o) s = execVminF32 o s := rfl
@[simp] theorem exec_vmaxF32 (o : OpR) (s : State) : exec (.vmaxF32 o) s = execVmaxF32 o s := rfl
@[simp] theorem exec_vabsF32 (o : OpR) (s : State) : exec (.vabsF32 o) s = execVabsF32 o s := rfl
@[simp] theorem exec_vnegF32 (o : OpR) (s : State) : exec (.vnegF32 o) s = execVnegF32 o s := rfl
@[simp] theorem exec_vcmpEqF32 (o : OpR) (s : State) : exec (.vcmpEqF32 o) s = execVcmpEqF32 o s := rfl
@[simp] theorem exec_vcmpNeF32 (o : OpR) (s : State) : exec (.vcmpNeF32 o) s = execVcmpNeF32 o s := rfl
@[simp] theorem exec_vcmpLtF32 (o : OpR) (s : State) : exec (.vcmpLtF32 o) s = execVcmpLtF32 o s := rfl
@[simp] theorem exec_vcmpLeF32 (o : OpR) (s : State) : exec (.vcmpLeF32 o) s = execVcmpLeF32 o s := rfl
@[simp] theorem exec_vredAddF32 (o : OpR) (s : State) : exec (.vredAddF32 o) s = execVredAddF32 o s := rfl
@[simp] theorem exec_vredMaxF32 (o : OpR) (s : State) : exec (.vredMaxF32 o) s = execVredMaxF32 o s := rfl
@[simp] theorem exec_vredMinF32 (o : OpR) (s : State) : exec (.vredMinF32 o) s = execVredMinF32 o s := rfl
@[simp] theorem exec_vscanAddF32 (o : OpR) (s : State) : exec (.vscanAddF32 o) s = execVscanAddF32 o s := rfl
@[simp] theorem exec_vrcp (o : OpR) (s : State) : exec (.vrcp o) s = execVrcp o s := rfl
@[simp] theorem exec_vrsq (o : OpR) (s : State) : exec (.vrsq o) s = execVrsq o s := rfl
@[simp] theorem exec_vsqrt (o : OpR) (s : State) : exec (.vsqrt o) s = execVsqrt o s := rfl
@[simp] theorem exec_vexp2 (o : OpR) (s : State) : exec (.vexp2 o) s = execVexp2 o s := rfl
@[simp] theorem exec_vlog2 (o : OpR) (s : State) : exec (.vlog2 o) s = execVlog2 o s := rfl
@[simp] theorem exec_vtanh (o : OpR) (s : State) : exec (.vtanh o) s = execVtanh o s := rfl
@[simp] theorem exec_vscaleF32 (o : OpR) (s : State) : exec (.vscaleF32 o) s = execVscaleF32 o s := rfl
@[simp] theorem exec_vscaleI32 (o : OpR) (s : State) : exec (.vscaleI32 o) s = execVscaleI32 o s := rfl
@[simp] theorem exec_vaddI32 (o : OpR) (s : State) : exec (.vaddI32 o) s = execVaddI32 o s := rfl
@[simp] theorem exec_vsubI32 (o : OpR) (s : State) : exec (.vsubI32 o) s = execVsubI32 o s := rfl
@[simp] theorem exec_vmulI32 (o : OpR) (s : State) : exec (.vmulI32 o) s = execVmulI32 o s := rfl
@[simp] theorem exec_vminI32 (o : OpR) (s : State) : exec (.vminI32 o) s = execVminI32 o s := rfl
@[simp] theorem exec_vmaxI32 (o : OpR) (s : State) : exec (.vmaxI32 o) s = execVmaxI32 o s := rfl
@[simp] theorem exec_vminU32 (o : OpR) (s : State) : exec (.vminU32 o) s = execVminU32 o s := rfl
@[simp] theorem exec_vmaxU32 (o : OpR) (s : State) : exec (.vmaxU32 o) s = execVmaxU32 o s := rfl
@[simp] theorem exec_vabsI32 (o : OpR) (s : State) : exec (.vabsI32 o) s = execVabsI32 o s := rfl
@[simp] theorem exec_vnegI32 (o : OpR) (s : State) : exec (.vnegI32 o) s = execVnegI32 o s := rfl
@[simp] theorem exec_vand (o : OpR) (s : State) : exec (.vand o) s = execVand o s := rfl
@[simp] theorem exec_vor (o : OpR) (s : State) : exec (.vor o) s = execVor o s := rfl
@[simp] theorem exec_vxor (o : OpR) (s : State) : exec (.vxor o) s = execVxor o s := rfl
@[simp] theorem exec_vnot (o : OpR) (s : State) : exec (.vnot o) s = execVnot o s := rfl
@[simp] theorem exec_vshl (o : OpR) (s : State) : exec (.vshl o) s = execVshl o s := rfl
@[simp] theorem exec_vshr (o : OpR) (s : State) : exec (.vshr o) s = execVshr o s := rfl
@[simp] theorem exec_vsra (o : OpR) (s : State) : exec (.vsra o) s = execVsra o s := rfl
@[simp] theorem exec_vcmpEqI32 (o : OpR) (s : State) : exec (.vcmpEqI32 o) s = execVcmpEqI32 o s := rfl
@[simp] theorem exec_vcmpNeI32 (o : OpR) (s : State) : exec (.vcmpNeI32 o) s = execVcmpNeI32 o s := rfl
@[simp] theorem exec_vcmpLtI32 (o : OpR) (s : State) : exec (.vcmpLtI32 o) s = execVcmpLtI32 o s := rfl
@[simp] theorem exec_vcmpLeI32 (o : OpR) (s : State) : exec (.vcmpLeI32 o) s = execVcmpLeI32 o s := rfl
@[simp] theorem exec_vcmpLtuI32 (o : OpR) (s : State) : exec (.vcmpLtuI32 o) s = execVcmpLtuI32 o s := rfl
@[simp] theorem exec_vcmpLeuI32 (o : OpR) (s : State) : exec (.vcmpLeuI32 o) s = execVcmpLeuI32 o s := rfl
@[simp] theorem exec_vredAddI32 (o : OpR) (s : State) : exec (.vredAddI32 o) s = execVredAddI32 o s := rfl
@[simp] theorem exec_vredMaxI32 (o : OpR) (s : State) : exec (.vredMaxI32 o) s = execVredMaxI32 o s := rfl
@[simp] theorem exec_vredMinI32 (o : OpR) (s : State) : exec (.vredMinI32 o) s = execVredMinI32 o s := rfl
@[simp] theorem exec_vscanAddI32 (o : OpR) (s : State) : exec (.vscanAddI32 o) s = execVscanAddI32 o s := rfl
@[simp] theorem exec_vsel (o : OpR) (s : State) : exec (.vsel o) s = execVsel o s := rfl
@[simp] theorem exec_vmov (o : OpR) (s : State) : exec (.vmov o) s = execVmov o s := rfl
@[simp] theorem exec_vbcast (o : OpR) (s : State) : exec (.vbcast o) s = execVbcast o s := rfl
@[simp] theorem exec_vextr (o : OpR) (s : State) : exec (.vextr o) s = execVextr o s := rfl
@[simp] theorem exec_vins (o : OpR) (s : State) : exec (.vins o) s = execVins o s := rfl
@[simp] theorem exec_vperm (o : OpR) (s : State) : exec (.vperm o) s = execVperm o s := rfl
@[simp] theorem exec_vshuf (o : OpR) (s : State) : exec (.vshuf o) s = execVshuf o s := rfl
@[simp] theorem exec_vcomp (o : OpR) (s : State) : exec (.vcomp o) s = execVcomp o s := rfl
@[simp] theorem exec_vexpd (o : OpR) (s : State) : exec (.vexpd o) s = execVexpd o s := rfl
@[simp] theorem exec_vcvt (o : OpR) (s : State) : exec (.vcvt o) s = execVcvt o s := rfl
@[simp] theorem exec_vlut (o : OpR) (s : State) : exec (.vlut o) s = execVlut o s := rfl
@[simp] theorem exec_kldE4m3 (o : OpR) (s : State) : exec (.kldE4m3 o) s = execKldE4m3 o s := rfl
@[simp] theorem exec_kldBf16 (o : OpR) (s : State) : exec (.kldBf16 o) s = execKldBf16 o s := rfl
@[simp] theorem exec_vqdec (o : OpR) (s : State) : exec (.vqdec o) s = execVqdec o s := rfl
@[simp] theorem exec_vdot4I8 (o : OpR) (s : State) : exec (.vdot4I8 o) s = execVdot4I8 o s := rfl
@[simp] theorem exec_vdot4E4m3 (o : OpR) (s : State) : exec (.vdot4E4m3 o) s = execVdot4E4m3 o s := rfl
@[simp] theorem exec_qbind (o : OpR) (s : State) : exec (.qbind o) s = execQbind o s := rfl
@[simp] theorem exec_qbindc (o : OpR) (s : State) : exec (.qbindc o) s = execQbindc o s := rfl
@[simp] theorem exec_qfree (o : OpR) (s : State) : exec (.qfree o) s = execQfree o s := rfl
@[simp] theorem exec_qstat (o : OpR) (s : State) : exec (.qstat o) s = execQstat o s := rfl
@[simp] theorem exec_qpeek (o : OpR) (s : State) : exec (.qpeek o) s = execQpeek o s := rfl
@[simp] theorem exec_qskip (o : OpR) (s : State) : exec (.qskip o) s = execQskip o s := rfl
@[simp] theorem exec_qemit (o : OpR) (s : State) : exec (.qemit o) s = execQemit o s := rfl
@[simp] theorem exec_qseek (o : OpR) (s : State) : exec (.qseek o) s = execQseek o s := rfl
@[simp] theorem exec_tspawn (o : OpR) (s : State) : exec (.tspawn o) s = execTspawn o s := rfl
@[simp] theorem exec_tspawng (o : OpR) (s : State) : exec (.tspawng o) s = execTspawng o s := rfl
@[simp] theorem exec_tend (o : OpR) (s : State) : exec (.tend o) s = execTend o s := rfl
@[simp] theorem exec_tabort (o : OpR) (s : State) : exec (.tabort o) s = execTabort o s := rfl
@[simp] theorem exec_futres (o : OpR) (s : State) : exec (.futres o) s = execFutres o s := rfl
@[simp] theorem exec_futreg (o : OpR) (s : State) : exec (.futreg o) s = execFutreg o s := rfl
@[simp] theorem exec_futjoin (o : OpR) (s : State) : exec (.futjoin o) s = execFutjoin o s := rfl
@[simp] theorem exec_gjoin (o : OpR) (s : State) : exec (.gjoin o) s = execGjoin o s := rfl
@[simp] theorem exec_gleave (o : OpR) (s : State) : exec (.gleave o) s = execGleave o s := rfl
@[simp] theorem exec_garr (o : OpR) (s : State) : exec (.garr o) s = execGarr o s := rfl
@[simp] theorem exec_gwait (o : OpR) (s : State) : exec (.gwait o) s = execGwait o s := rfl
@[simp] theorem exec_barinit (o : OpR) (s : State) : exec (.barinit o) s = execBarinit o s := rfl
@[simp] theorem exec_bararr (o : OpR) (s : State) : exec (.bararr o) s = execBararr o s := rfl
@[simp] theorem exec_barexp (o : OpR) (s : State) : exec (.barexp o) s = execBarexp o s := rfl
@[simp] theorem exec_barwait (o : OpR) (s : State) : exec (.barwait o) s = execBarwait o s := rfl
@[simp] theorem exec_rawait (o : OpR) (s : State) : exec (.rawait o) s = execRawait o s := rfl
@[simp] theorem exec_rrel (o : OpR) (s : State) : exec (.rrel o) s = execRrel o s := rfl
@[simp] theorem exec_rpoll (o : OpR) (s : State) : exec (.rpoll o) s = execRpoll o s := rfl
@[simp] theorem exec_cpy (o : OpR) (s : State) : exec (.cpy o) s = execCpy o s := rfl
@[simp] theorem exec_cpyq (o : OpR) (s : State) : exec (.cpyq o) s = execCpyq o s := rfl
@[simp] theorem exec_cpyf (o : OpR) (s : State) : exec (.cpyf o) s = execCpyf o s := rfl
@[simp] theorem exec_msend (o : OpR) (s : State) : exec (.msend o) s = execMsend o s := rfl
@[simp] theorem exec_mxop (o : OpR) (s : State) : exec (.mxop o) s = execMxop o s := rfl
@[simp] theorem exec_cfgw (o : OpR) (s : State) : exec (.cfgw o) s = execCfgw o s := rfl
@[simp] theorem exec_cfgs (o : OpR) (s : State) : exec (.cfgs o) s = execCfgs o s := rfl
@[simp] theorem exec_gstart (o : OpR) (s : State) : exec (.gstart o) s = execGstart o s := rfl
@[simp] theorem exec_gfrz (o : OpR) (s : State) : exec (.gfrz o) s = execGfrz o s := rfl
@[simp] theorem exec_gthaw (o : OpR) (s : State) : exec (.gthaw o) s = execGthaw o s := rfl
@[simp] theorem exec_jcancel (o : OpR) (s : State) : exec (.jcancel o) s = execJcancel o s := rfl
@[simp] theorem exec_gfrzRound (o : OpR) (s : State) : exec (.gfrzRound o) s = execGfrzRound o s := rfl
@[simp] theorem exec_trap (o : OpR) (s : State) : exec (.trap o) s = execTrap o s := rfl
@[simp] theorem exec_eret (o : OpR) (s : State) : exec (.eret o) s = execEret o s := rfl
@[simp] theorem exec_mfs (o : OpR) (s : State) : exec (.mfs o) s = execMfs o s := rfl
@[simp] theorem exec_mts (o : OpR) (s : State) : exec (.mts o) s = execMts o s := rfl
@[simp] theorem exec_wfe (o : OpR) (s : State) : exec (.wfe o) s = execWfe o s := rfl
@[simp] theorem exec_sev (o : OpR) (s : State) : exec (.sev o) s = execSev o s := rfl
@[simp] theorem exec_brk (o : OpR) (s : State) : exec (.brk o) s = execBrk o s := rfl
@[simp] theorem exec_nop (o : OpR) (s : State) : exec (.nop o) s = execNop o s := rfl
@[simp] theorem exec_tlbinvAll (o : OpR) (s : State) : exec (.tlbinvAll o) s = execTlbinvAll o s := rfl
@[simp] theorem exec_tlbinvVa (o : OpR) (s : State) : exec (.tlbinvVa o) s = execTlbinvVa o s := rfl
@[simp] theorem exec_tlbinvRng (o : OpR) (s : State) : exec (.tlbinvRng o) s = execTlbinvRng o s := rfl
@[simp] theorem exec_cinv (o : OpR) (s : State) : exec (.cinv o) s = execCinv o s := rfl
@[simp] theorem exec_cwb (o : OpR) (s : State) : exec (.cwb o) s = execCwb o s := rfl
@[simp] theorem exec_idle (o : OpR) (s : State) : exec (.idle o) s = execIdle o s := rfl
@[simp] theorem exec_postedAtomicPerformed (cid : Nat) (s : State) : exec (.postedAtomicPerformed cid) s = execPostedAtomicPerformed cid s := rfl
@[simp] theorem exec_patternReadahead (cid : Nat) (port : Nat) (s : State) : exec (.patternReadahead cid port) s = execPatternReadahead cid port s := rfl
@[simp] theorem exec_portStallResume (cid : Nat) (s : State) : exec (.portStallResume cid) s = execPortStallResume cid s := rfl
@[simp] theorem exec_ldfRetry (cid : Nat) (s : State) : exec (.ldfRetry cid) s = execLdfRetry cid s := rfl
@[simp] theorem exec_barwaitRelease (cid : Nat) (s : State) : exec (.barwaitRelease cid) s = execBarwaitRelease cid s := rfl
@[simp] theorem exec_rawaitRelease (cid : Nat) (s : State) : exec (.rawaitRelease cid) s = execRawaitRelease cid s := rfl
@[simp] theorem exec_gwaitRelease (cid : Nat) (s : State) : exec (.gwaitRelease cid) s = execGwaitRelease cid s := rfl
@[simp] theorem exec_wfeWake (cid : Nat) (s : State) : exec (.wfeWake cid) s = execWfeWake cid s := rfl
@[simp] theorem exec_wfeTimeout (cid : Nat) (s : State) : exec (.wfeTimeout cid) s = execWfeTimeout cid s := rfl
@[simp] theorem exec_idleExpire (cid : Nat) (s : State) : exec (.idleExpire cid) s = execIdleExpire cid s := rfl
@[simp] theorem exec_frontierReached (cid : Nat) (s : State) : exec (.frontierReached cid) s = execFrontierReached cid s := rfl
@[simp] theorem exec_deferredFaultDelivery (cid : Nat) (s : State) : exec (.deferredFaultDelivery cid) s = execDeferredFaultDelivery cid s := rfl
@[simp] theorem exec_journalChunkWaitTimeout (cid : Nat) (s : State) : exec (.journalChunkWaitTimeout cid) s = execJournalChunkWaitTimeout cid s := rfl
@[simp] theorem exec_tsCommit (dom : Nat) (s : State) : exec (.tsCommit dom) s = execTsCommit dom s := rfl
@[simp] theorem exec_tsCommitComplete (dom : Nat) (s : State) : exec (.tsCommitComplete dom) s = execTsCommitComplete dom s := rfl
@[simp] theorem exec_taskStart (cid : Nat) (s : State) : exec (.taskStart cid) s = execTaskStart cid s := rfl
@[simp] theorem exec_dispatcherTakePacket (queue : Nat) (s : State) : exec (.dispatcherTakePacket queue) s = execDispatcherTakePacket queue s := rfl
@[simp] theorem exec_dispatchSelect (die : Nat) (s : State) : exec (.dispatchSelect die) s = execDispatchSelect die s := rfl
@[simp] theorem exec_headAging (die : Nat) (queue : Nat) (s : State) : exec (.headAging die queue) s = execHeadAging die queue s := rfl
@[simp] theorem exec_residentHeadRelease (die : Nat) (queue : Nat) (s : State) : exec (.residentHeadRelease die queue) s = execResidentHeadRelease die queue s := rfl
@[simp] theorem exec_gangTimeout (die : Nat) (queue : Nat) (s : State) : exec (.gangTimeout die queue) s = execGangTimeout die queue s := rfl
@[simp] theorem exec_pipelineRebalance (die : Nat) (s : State) : exec (.pipelineRebalance die) s = execPipelineRebalance die s := rfl
@[simp] theorem exec_siteArbiterPeriod (site : Nat) (s : State) : exec (.siteArbiterPeriod site) s = execSiteArbiterPeriod site s := rfl
@[simp] theorem exec_jcancelLinearise (die : Nat) (s : State) : exec (.jcancelLinearise die) s = execJcancelLinearise die s := rfl
@[simp] theorem exec_cancelKillTimeout (cid : Nat) (s : State) : exec (.cancelKillTimeout cid) s = execCancelKillTimeout cid s := rfl
@[simp] theorem exec_jcancelComplete (s : State) : exec .jcancelComplete s = execJcancelComplete s := rfl
@[simp] theorem exec_walkComplete (die : Nat) (s : State) : exec (.walkComplete die) s = execWalkComplete die s := rfl
@[simp] theorem exec_icacheMissFill (core : Nat) (va : W64) (bad : Bool) (s : State) : exec (.icacheMissFill core va bad) s = execIcacheMissFill core va bad s := rfl
@[simp] theorem exec_bankPortRequest (bank : Nat) (portF : Bool) (s : State) : exec (.bankPortRequest bank portF) s = execBankPortRequest bank portF s := rfl
@[simp] theorem exec_rmwAtomic (bank : Nat) (portF : Bool) (s : State) : exec (.rmwAtomic bank portF) s = execRmwAtomic bank portF s := rfl
@[simp] theorem exec_rmwAtomicComplete (bank : Nat) (s : State) : exec (.rmwAtomicComplete bank) s = execRmwAtomicComplete bank s := rfl
@[simp] theorem exec_bankScrub (word : Nat) (err : EccKind) (s : State) : exec (.bankScrub word err) s = execBankScrub word err s := rfl
@[simp] theorem exec_atomicEnginePick (cluster : Nat) (s : State) : exec (.atomicEnginePick cluster) s = execAtomicEnginePick cluster s := rfl
@[simp] theorem exec_atomicEngineLineFill (cluster : Nat) (line : Nat) (s : State) : exec (.atomicEngineLineFill cluster line) s = execAtomicEngineLineFill cluster line s := rfl
@[simp] theorem exec_atomicEngineRecall (line : Nat) (s : State) : exec (.atomicEngineRecall line) s = execAtomicEngineRecall line s := rfl
@[simp] theorem exec_hostSnoop (line : Nat) (s : State) : exec (.hostSnoop line) s = execHostSnoop line s := rfl
@[simp] theorem exec_peerAccessServe (acc : PeerAcc) (s : State) : exec (.peerAccessServe acc) s = execPeerAccessServe acc s := rfl
@[simp] theorem exec_copyQueueTake (eng : Nat) (queue : Nat) (s : State) : exec (.copyQueueTake eng queue) s = execCopyQueueTake eng queue s := rfl
@[simp] theorem exec_copyQueueStall (eng : Nat) (queue : Nat) (s : State) : exec (.copyQueueStall eng queue) s = execCopyQueueStall eng queue s := rfl
@[simp] theorem exec_fenceCopyStart (eng : Nat) (copy : Nat) (s : State) : exec (.fenceCopyStart eng copy) s = execFenceCopyStart eng copy s := rfl
@[simp] theorem exec_copyTransfer (eng : Nat) (copy : Nat) (s : State) : exec (.copyTransfer eng copy) s = execCopyTransfer eng copy s := rfl
@[simp] theorem exec_copySegmentComplete (eng : Nat) (copy : Nat) (seg : Nat) (s : State) : exec (.copySegmentComplete eng copy seg) s = execCopySegmentComplete eng copy seg s := rfl
@[simp] theorem exec_copyComplete (eng : Nat) (copy : Nat) (s : State) : exec (.copyComplete eng copy) s = execCopyComplete eng copy s := rfl
@[simp] theorem exec_ringPushRetry (eng : Nat) (copy : Nat) (s : State) : exec (.ringPushRetry eng copy) s = execRingPushRetry eng copy s := rfl
@[simp] theorem exec_ringRecordAck (ring : Nat) (slot : Nat) (s : State) : exec (.ringRecordAck ring slot) s = execRingRecordAck ring slot s := rfl
@[simp] theorem exec_barrierUpdate (obj : Nat) (s : State) : exec (.barrierUpdate obj) s = execBarrierUpdate obj s := rfl
@[simp] theorem exec_controlTokenArrive (tok : CtlTok) (s : State) : exec (.controlTokenArrive tok) s = execControlTokenArrive tok s := rfl
@[simp] theorem exec_cqtabWrite (v : W64) (s : State) : exec (.cqtabWrite v) s = execCqtabWrite v s := rfl
@[simp] theorem exec_tqtabWrite (v : W64) (s : State) : exec (.tqtabWrite v) s = execTqtabWrite v s := rfl
@[simp] theorem exec_ptrootWrite (v : W64) (s : State) : exec (.ptrootWrite v) s = execPtrootWrite v s := rfl
@[simp] theorem exec_domcfgWrite (dom : Nat) (v : W64) (s : State) : exec (.domcfgWrite dom v) s = execDomcfgWrite dom v s := rfl
@[simp] theorem exec_registerWrite (off : Nat) (v : W64) (s : State) : exec (.registerWrite off v) s = execRegisterWrite off v s := rfl
@[simp] theorem exec_cfgStreamApply (cid : Nat) (s : State) : exec (.cfgStreamApply cid) s = execCfgStreamApply cid s := rfl
@[simp] theorem exec_cfgWordApply (cid : Nat) (s : State) : exec (.cfgWordApply cid) s = execCfgWordApply cid s := rfl
@[simp] theorem exec_paramBlockRead (key : Nat) (s : State) : exec (.paramBlockRead key) s = execParamBlockRead key s := rfl
@[simp] theorem exec_startTokenArrive (key : Nat) (s : State) : exec (.startTokenArrive key) s = execStartTokenArrive key s := rfl
@[simp] theorem exec_skipReceived (key : Nat) (s : State) : exec (.skipReceived key) s = execSkipReceived key s := rfl
@[simp] theorem exec_scnFire (key : Nat) (s : State) : exec (.scnFire key) s = execScnFire key s := rfl
@[simp] theorem exec_isxFire (key : Nat) (s : State) : exec (.isxFire key) s = execIsxFire key s := rfl
@[simp] theorem exec_uniFire (key : Nat) (s : State) : exec (.uniFire key) s = execUniFire key s := rfl
@[simp] theorem exec_rptFire (key : Nat) (s : State) : exec (.rptFire key) s = execRptFire key s := rfl
@[simp] theorem exec_redFire (key : Nat) (s : State) : exec (.redFire key) s = execRedFire key s := rfl
@[simp] theorem exec_vrdFire (key : Nat) (s : State) : exec (.vrdFire key) s = execVrdFire key s := rfl
@[simp] theorem exec_cmbFire (key : Nat) (s : State) : exec (.cmbFire key) s = execCmbFire key s := rfl
@[simp] theorem exec_lwrFire (key : Nat) (s : State) : exec (.lwrFire key) s = execLwrFire key s := rfl
@[simp] theorem exec_rowFire (key : Nat) (s : State) : exec (.rowFire key) s = execRowFire key s := rfl
@[simp] theorem exec_memopFire (key : Nat) (s : State) : exec (.memopFire key) s = execMemopFire key s := rfl
@[simp] theorem exec_joinFire (key : Nat) (s : State) : exec (.joinFire key) s = execJoinFire key s := rfl
@[simp] theorem exec_periodCompletion (key : Nat) (s : State) : exec (.periodCompletion key) s = execPeriodCompletion key s := rfl
@[simp] theorem exec_madderBandDecode (key : Nat) (s : State) : exec (.madderBandDecode key) s = execMadderBandDecode key s := rfl
@[simp] theorem exec_matrixOpFire (key : Nat) (s : State) : exec (.matrixOpFire key) s = execMatrixOpFire key s := rfl
@[simp] theorem exec_matrixChunkComplete (key : Nat) (s : State) : exec (.matrixChunkComplete key) s = execMatrixChunkComplete key s := rfl
@[simp] theorem exec_drainComplete (key : Nat) (s : State) : exec (.drainComplete key) s = execDrainComplete key s := rfl
@[simp] theorem exec_mxopMma (key : Nat) (s : State) : exec (.mxopMma key) s = execMxopMma key s := rfl
@[simp] theorem exec_mxopDrain (key : Nat) (s : State) : exec (.mxopDrain key) s = execMxopDrain key s := rfl
@[simp] theorem exec_mxopZero (key : Nat) (s : State) : exec (.mxopZero key) s = execMxopZero key s := rfl
@[simp] theorem exec_roundMarkerReceive (key : Nat) (s : State) : exec (.roundMarkerReceive key) s = execRoundMarkerReceive key s := rfl
@[simp] theorem exec_graphFreezeComplete (base : Nat) (s : State) : exec (.graphFreezeComplete base) s = execGraphFreezeComplete base s := rfl
@[simp] theorem exec_circuitSourceSend (circ : Nat) (s : State) : exec (.circuitSourceSend circ) s = execCircuitSourceSend circ s := rfl
@[simp] theorem exec_circuitFlushTimer (circ : Nat) (s : State) : exec (.circuitFlushTimer circ) s = execCircuitFlushTimer circ s := rfl
@[simp] theorem exec_circuitPacketArrive (circ : Nat) (seq : Nat) (toks : List Token) (s : State) : exec (.circuitPacketArrive circ seq toks) s = execCircuitPacketArrive circ seq toks s := rfl
@[simp] theorem exec_activeMessageArrive (msg : Message) (s : State) : exec (.activeMessageArrive msg) s = execActiveMessageArrive msg s := rfl
@[simp] theorem exec_faultRecordAlloc (die : Nat) (s : State) : exec (.faultRecordAlloc die) s = execFaultRecordAlloc die s := rfl
@[simp] theorem exec_faultTaskLaunch (die : Nat) (rec : Nat) (s : State) : exec (.faultTaskLaunch die rec) s = execFaultTaskLaunch die rec s := rfl
@[simp] theorem exec_frcmdResume (die : Nat) (rec : Nat) (s : State) : exec (.frcmdResume die rec) s = execFrcmdResume die rec s := rfl
@[simp] theorem exec_frcmdAbandon (die : Nat) (rec : Nat) (s : State) : exec (.frcmdAbandon die rec) s = execFrcmdAbandon die rec s := rfl
@[simp] theorem exec_frcmdRelease (die : Nat) (rec : Nat) (s : State) : exec (.frcmdRelease die rec) s = execFrcmdRelease die rec s := rfl
@[simp] theorem exec_unitctlDrain (die : Nat) (site : Nat) (s : State) : exec (.unitctlDrain die site) s = execUnitctlDrain die site s := rfl
@[simp] theorem exec_unitctlFence (die : Nat) (site : Nat) (s : State) : exec (.unitctlFence die site) s = execUnitctlFence die site s := rfl
@[simp] theorem exec_unitctlUnfence (die : Nat) (site : Nat) (s : State) : exec (.unitctlUnfence die site) s = execUnitctlUnfence die site s := rfl
@[simp] theorem exec_jctlSave (s : State) : exec .jctlSave s = execJctlSave s := rfl
@[simp] theorem exec_jctlRestore (s : State) : exec .jctlRestore s = execJctlRestore s := rfl
@[simp] theorem exec_unitFailureDetect (die : Nat) (site : Nat) (s : State) : exec (.unitFailureDetect die site) s = execUnitFailureDetect die site s := rfl
@[simp] theorem exec_mirrorPoint (s : State) : exec .mirrorPoint s = execMirrorPoint s := rfl
@[simp] theorem exec_mirrorPointAck (s : State) : exec .mirrorPointAck s = execMirrorPointAck s := rfl
@[simp] theorem exec_buddyWrite (v : W64) (s : State) : exec (.buddyWrite v) s = execBuddyWrite v s := rfl
@[simp] theorem exec_packageLossRecovery (pkg : Nat) (s : State) : exec (.packageLossRecovery pkg) s = execPackageLossRecovery pkg s := rfl
@[simp] theorem exec_ecntRead (die : Nat) (s : State) : exec (.ecntRead die) s = execEcntRead die s := rfl
@[simp] theorem exec_lnkstRead (port : Nat) (s : State) : exec (.lnkstRead port) s = execLnkstRead port s := rfl
@[simp] theorem exec_hsemCas (who : RegParty) (expected : W32) (new : W32) (s : State) : exec (.hsemCas who expected new) s = execHsemCas who expected new s := rfl
@[simp] theorem exec_hostBarAccess (acc : HostAcc) (s : State) : exec (.hostBarAccess acc) s = execHostBarAccess acc s := rfl
@[simp] theorem exec_hnoteWrite (v : W64) (s : State) : exec (.hnoteWrite v) s = execHnoteWrite v s := rfl
@[simp] theorem exec_pkgidWrite (v : W64) (s : State) : exec (.pkgidWrite v) s = execPkgidWrite v s := rfl
@[simp] theorem exec_bootGo (s : State) : exec .bootGo s = execBootGo s := rfl
@[simp] theorem exec_pwrctlRun (s : State) : exec .pwrctlRun s = execPwrctlRun s := rfl
@[simp] theorem exec_pwrctlStandby (s : State) : exec .pwrctlStandby s = execPwrctlStandby s := rfl
@[simp] theorem exec_pwrctlOff (s : State) : exec .pwrctlOff s = execPwrctlOff s := rfl
@[simp] theorem exec_powerThrottle (watts : Nat) (s : State) : exec (.powerThrottle watts) s = execPowerThrottle watts s := rfl
@[simp] theorem exec_cxlMemAccess (acc : HostAcc) (s : State) : exec (.cxlMemAccess acc) s = execCxlMemAccess acc s := rfl
@[simp] theorem exec_cxlRequestTimeout (req : Nat) (s : State) : exec (.cxlRequestTimeout req) s = execCxlRequestTimeout req s := rfl
@[simp] theorem exec_hostLinkDown (port : Nat) (s : State) : exec (.hostLinkDown port) s = execHostLinkDown port s := rfl
@[simp] theorem exec_packetHop (pkt : Nat) (s : State) : exec (.packetHop pkt) s = execPacketHop pkt s := rfl
@[simp] theorem exec_packetArrive (port : Nat) (pkt : Packet) (s : State) : exec (.packetArrive port pkt) s = execPacketArrive port pkt s := rfl
@[simp] theorem exec_flitCrcReplay (port : Nat) (s : State) : exec (.flitCrcReplay port) s = execFlitCrcReplay port s := rfl
@[simp] theorem exec_laneFailRestripe (port : Nat) (s : State) : exec (.laneFailRestripe port) s = execLaneFailRestripe port s := rfl
@[simp] theorem exec_powerOnReset (fuses : List (Nat × Nat)) (s : State) : exec (.powerOnReset fuses) s = execPowerOnReset fuses s := rfl
@[simp] theorem exec_hbmTrainingDone (s : State) : exec .hbmTrainingDone s = execHbmTrainingDone s := rfl
@[simp] theorem exec_linkTrained (port : Nat) (lanes : Nat) (s : State) : exec (.linkTrained port lanes) s = execLinkTrained port lanes s := rfl
@[simp] theorem exec_loaderLoadObject (obj : CodeObject) (s : State) :
    exec (.loaderLoadObject obj) s = execLoaderLoadObject obj s := rfl
@[simp] theorem exec_molrougEmbed (obj : CodeObject) (sites : List (Nat × Nat)) (s : State) :
    exec (.molrougEmbed obj sites) s = execMolrougEmbed obj sites s := rfl
@[simp] theorem exec_illegalInstruction (w : W32) (second : W32) (s : State) : exec (.illegalInstruction w second) s = execIllegalInstruction w second s := rfl
@[simp] theorem exec_memorySideCacheAccess (acc : LineAcc) (s : State) : exec (.memorySideCacheAccess acc) s = execMemorySideCacheAccess acc s := rfl
@[simp] theorem exec_cxlRequestCompletion (req : Nat) (ok : Bool) (s : State) : exec (.cxlRequestCompletion req ok) s = execCxlRequestCompletion req ok s := rfl
@[simp] theorem exec_bisnpResponse (die : Nat) (s : State) : exec (.bisnpResponse die) s = execBisnpResponse die s := rfl
@[simp] theorem exec_hostLinkUp (port : Nat) (s : State) : exec (.hostLinkUp port) s = execHostLinkUp port s := rfl
@[simp] theorem exec_hsemRead (s : State) : exec .hsemRead s = execHsemRead s := rfl
@[simp] theorem exec_circuitAcknowledgement (circ : Nat) (seq : Nat) (s : State) : exec (.circuitAcknowledgement circ seq) s = execCircuitAcknowledgement circ seq s := rfl
@[simp] theorem exec_graphThawComplete (base : Nat) (s : State) : exec (.graphThawComplete base) s = execGraphThawComplete base s := rfl

end Sys2Proof.Machine
end

