-- ==== Sys2Proof/Laws/Map.lean ====
section
/-! SUPPORT. Sparse maps: a read after a write, and the canonical form. -/

namespace Sys2Proof.Machine
open Sys2Proof

theorem look_del_self {α : Type} (m : FMap α) (n : Nat) : look (del m n) n = none := by
  induction m with
  | nil => rfl
  | cons p r ih =>
    obtain ⟨k, v⟩ := p
    by_cases h : k = n
    · simp [del, h, ih]
    · simp [del, h, look, ih]

theorem look_del_ne {α : Type} (m : FMap α) {n j : Nat} (h : j ≠ n) : look (del m n) j = look m j := by
  induction m with
  | nil => rfl
  | cons p r ih =>
    obtain ⟨k, v⟩ := p
    by_cases hk : k = n
    · have : k ≠ j := fun e => h (e ▸ hk)
      simp [del, hk, look, ih]
      intro e; exact absurd e.symm h
    · simp [del, hk, look, ih]

theorem look_ins_self {α : Type} (m : FMap α) (n : Nat) (x : α) (h : look m n = none) : look (ins m n x) n = some x := by
  induction m with
  | nil => simp [ins, look]
  | cons p r ih =>
    obtain ⟨k, v⟩ := p
    by_cases hk : k = n
    · simp [look, hk] at h
    · have hr : look r n = none := by simpa [look, hk] using h
      by_cases hn : n < k
      · simp [ins, hn, look]
      · simp [ins, hn, look, hk, ih hr]

theorem look_ins_ne {α : Type} (m : FMap α) {n j : Nat} (x : α) (h : j ≠ n) : look (ins m n x) j = look m j := by
  induction m with
  | nil => simp [ins, look, Ne.symm h]
  | cons p r ih =>
    obtain ⟨k, v⟩ := p
    by_cases hn : n < k
    · simp [ins, hn, look, Ne.symm h]
    · simp [ins, hn, look, ih]

theorem getD_setD_self {α : Type} [DecidableEq α] (m : FMap α) (d : α) (n : Nat) (x : α) : getD (setD m d n x) d n = x := by
  by_cases h : x = d
  · simp [setD, h, getD, look_del_self]
  · simp [setD, h, getD, put, look_ins_self _ _ _ (look_del_self m n)]

theorem getD_setD_ne {α : Type} [DecidableEq α] (m : FMap α) (d : α) {n j : Nat} (x : α) (h : j ≠ n) :
    getD (setD m d n x) d j = getD m d j := by
  by_cases hx : x = d
  · simp [setD, hx, getD, look_del_ne m h]
  · simp [setD, hx, getD, put, look_ins_ne _ x h, look_del_ne m h]

/-- What a key reads after a write. -/
theorem getD_setD {α : Type} [DecidableEq α] (m : FMap α) (d : α) (n j : Nat) (x : α) :
    getD (setD m d n x) d j = if j = n then x else getD m d j := by
  by_cases h : j = n
  · subst h; simp [getD_setD_self]
  · simp [h, getD_setD_ne m d x h]

theorem risingFrom_mono {α : Type} (m : FMap α) {a b : Nat} (h : a ≤ b) (hm : risingFrom b m = true) : risingFrom a m = true := by
  cases m with
  | nil => rfl
  | cons p r =>
    obtain ⟨k, v⟩ := p
    simp [risingFrom] at hm ⊢
    exact ⟨by omega, hm.2⟩

theorem risingFrom_del {α : Type} (m : FMap α) (n b : Nat) (h : risingFrom b m = true) : risingFrom b (del m n) = true := by
  induction m generalizing b with
  | nil => rfl
  | cons p r ih =>
    obtain ⟨k, v⟩ := p
    simp [risingFrom] at h
    by_cases hk : k = n
    · simp [del, hk]
      exact risingFrom_mono _ (by omega) (ih (k + 1) h.2)
    · simp [del, hk, risingFrom, h.1, ih (k + 1) h.2]

theorem risingFrom_ins {α : Type} (m : FMap α) (n b : Nat) (x : α) (h : risingFrom b m = true) (hn : look m n = none) (hb : b ≤ n) :
    risingFrom b (ins m n x) = true := by
  induction m generalizing b with
  | nil => simp [ins, risingFrom, hb]
  | cons p r ih =>
    obtain ⟨k, v⟩ := p
    simp [risingFrom] at h
    by_cases hk : k = n
    · simp [look, hk] at hn
    · have hr : look r n = none := by simpa [look, hk] using hn
      by_cases hlt : n < k
      · simp [ins, hlt, risingFrom, hb, h.2] <;> omega
      · simp [ins, hlt, risingFrom, h.1, ih (k + 1) h.2 hr (by omega)]

theorem all_del {α : Type} (m : FMap α) (n : Nat) (q : Nat × α → Bool) (h : m.all q = true) : (del m n).all q = true := by
  induction m with
  | nil => rfl
  | cons p r ih =>
    obtain ⟨k, v⟩ := p
    rw [List.all_cons, Bool.and_eq_true] at h
    by_cases hk : k = n
    · simpa only [del, hk, if_true] using ih h.2
    · simp only [del, hk, if_false, List.all_cons, h.1, ih h.2, Bool.and_self]

theorem all_ins {α : Type} (m : FMap α) (n : Nat) (x : α) (q : Nat × α → Bool) (h : m.all q = true) (hx : q (n, x) = true) :
    (ins m n x).all q = true := by
  induction m with
  | nil => simp [ins, hx]
  | cons p r ih =>
    obtain ⟨k, v⟩ := p
    rw [List.all_cons, Bool.and_eq_true] at h
    by_cases hlt : n < k
    · simp [ins, hlt, hx, h.1]; simpa using h.2
    · simp only [ins, hlt, if_false, List.all_cons, h.1, ih h.2, Bool.and_self]

/-- A write keeps the canonical form. -/
theorem canonical_setD {α : Type} [DecidableEq α] (m : FMap α) (d : α) (n : Nat) (x : α) (h : canonical m d = true) :
    canonical (setD m d n x) d = true := by
  simp only [canonical, Bool.and_eq_true] at h ⊢
  by_cases hx : x = d
  · simp only [setD, hx, if_true]
    exact ⟨risingFrom_del m n 0 h.1, all_del m n _ h.2⟩
  · simp only [setD, hx, if_false, put]
    exact ⟨risingFrom_ins _ n 0 x (risingFrom_del m n 0 h.1) (look_del_self m n) (Nat.zero_le n),
      all_ins _ n x _ (all_del m n _ h.2) (by simp [hx])⟩

end Sys2Proof.Machine
end

