-- ==== Sys2Proof/Laws/State.lean ====
section
/-! SUPPORT. What each update of the state leaves alone and what it changes: one lemma a field. -/

namespace Sys2Proof.Machine
open Sys2Proof

/-! ## retire -/

@[simp] theorem retire_mem (s : State) (a : W64) : (retire s a).mem = s.mem := rfl
@[simp] theorem retire_tags (s : State) (a : W64) : (retire s a).tags = s.tags := rfl
@[simp] theorem retire_poison (s : State) (a : W64) : (retire s a).poison = s.poison := rfl
@[simp] theorem retire_linePoison (s : State) (a : W64) : (retire s a).linePoison = s.linePoison := rfl
@[simp] theorem retire_authors (s : State) (a : W64) : (retire s a).authors = s.authors := rfl
@[simp] theorem retire_siteMap (s : State) (a : W64) : (retire s a).siteMap = s.siteMap := rfl
@[simp] theorem retire_fmap (s : State) (a : W64) : (retire s a).fmap = s.fmap := rfl
@[simp] theorem retire_dev (s : State) (a : W64) : (retire s a).dev = s.dev := rfl
@[simp] theorem retire_cur (s : State) (a : W64) : (retire s a).cur = s.cur := rfl
@[simp] theorem retire_others (s : State) (a : W64) : (retire s a).others = s.others := rfl
@[simp] theorem retire_cores (s : State) (a : W64) : (retire s a).cores = s.cores := rfl
@[simp] theorem retire_clusters (s : State) (a : W64) : (retire s a).clusters = s.clusters := rfl
@[simp] theorem retire_nodes (s : State) (a : W64) : (retire s a).nodes = s.nodes := rfl
@[simp] theorem retire_walkers (s : State) (a : W64) : (retire s a).walkers = s.walkers := rfl
@[simp] theorem retire_agtTlbs (s : State) (a : W64) : (retire s a).agtTlbs = s.agtTlbs := rfl
@[simp] theorem retire_unitBad (s : State) (a : W64) : (retire s a).unitBad = s.unitBad := rfl
@[simp] theorem retire_disp (s : State) (a : W64) : (retire s a).disp = s.disp := rfl
@[simp] theorem retire_engines (s : State) (a : W64) : (retire s a).engines = s.engines := rfl
@[simp] theorem retire_copyNext (s : State) (a : W64) : (retire s a).copyNext = s.copyNext := rfl
@[simp] theorem retire_domains (s : State) (a : W64) : (retire s a).domains = s.domains := rfl
@[simp] theorem retire_live (s : State) (a : W64) : (retire s a).live = s.live := rfl
@[simp] theorem retire_ended (s : State) (a : W64) : (retire s a).ended = s.ended := rfl
@[simp] theorem retire_dir (s : State) (a : W64) : (retire s a).dir = s.dir := rfl
@[simp] theorem retire_chunksUsed (s : State) (a : W64) : (retire s a).chunksUsed = s.chunksUsed := rfl
@[simp] theorem retire_fab (s : State) (a : W64) : (retire s a).fab = s.fab := rfl
@[simp] theorem retire_host (s : State) (a : W64) : (retire s a).host = s.host := rfl
@[simp] theorem retire_cycle (s : State) (a : W64) : (retire s a).cycle = s.cycle := rfl
@[simp] theorem retire_draws (s : State) (a : W64) : (retire s a).draws = s.draws := rfl

/-! ## wrByte -/

@[simp] theorem wrByte_tags (s : State) (l : Nat) (b : Byte) : (wrByte s l b).tags = s.tags := rfl
@[simp] theorem wrByte_poison (s : State) (l : Nat) (b : Byte) : (wrByte s l b).poison = s.poison := rfl
@[simp] theorem wrByte_linePoison (s : State) (l : Nat) (b : Byte) : (wrByte s l b).linePoison = s.linePoison := rfl
@[simp] theorem wrByte_authors (s : State) (l : Nat) (b : Byte) : (wrByte s l b).authors = s.authors := rfl
@[simp] theorem wrByte_siteMap (s : State) (l : Nat) (b : Byte) : (wrByte s l b).siteMap = s.siteMap := rfl
@[simp] theorem wrByte_fmap (s : State) (l : Nat) (b : Byte) : (wrByte s l b).fmap = s.fmap := rfl
@[simp] theorem wrByte_dev (s : State) (l : Nat) (b : Byte) : (wrByte s l b).dev = s.dev := rfl
@[simp] theorem wrByte_cur (s : State) (l : Nat) (b : Byte) : (wrByte s l b).cur = s.cur := rfl
@[simp] theorem wrByte_cx (s : State) (l : Nat) (b : Byte) : (wrByte s l b).cx = s.cx := rfl
@[simp] theorem wrByte_others (s : State) (l : Nat) (b : Byte) : (wrByte s l b).others = s.others := rfl
@[simp] theorem wrByte_cores (s : State) (l : Nat) (b : Byte) : (wrByte s l b).cores = s.cores := rfl
@[simp] theorem wrByte_clusters (s : State) (l : Nat) (b : Byte) : (wrByte s l b).clusters = s.clusters := rfl
@[simp] theorem wrByte_nodes (s : State) (l : Nat) (b : Byte) : (wrByte s l b).nodes = s.nodes := rfl
@[simp] theorem wrByte_walkers (s : State) (l : Nat) (b : Byte) : (wrByte s l b).walkers = s.walkers := rfl
@[simp] theorem wrByte_agtTlbs (s : State) (l : Nat) (b : Byte) : (wrByte s l b).agtTlbs = s.agtTlbs := rfl
@[simp] theorem wrByte_unitBad (s : State) (l : Nat) (b : Byte) : (wrByte s l b).unitBad = s.unitBad := rfl
@[simp] theorem wrByte_disp (s : State) (l : Nat) (b : Byte) : (wrByte s l b).disp = s.disp := rfl
@[simp] theorem wrByte_engines (s : State) (l : Nat) (b : Byte) : (wrByte s l b).engines = s.engines := rfl
@[simp] theorem wrByte_copyNext (s : State) (l : Nat) (b : Byte) : (wrByte s l b).copyNext = s.copyNext := rfl
@[simp] theorem wrByte_domains (s : State) (l : Nat) (b : Byte) : (wrByte s l b).domains = s.domains := rfl
@[simp] theorem wrByte_live (s : State) (l : Nat) (b : Byte) : (wrByte s l b).live = s.live := rfl
@[simp] theorem wrByte_ended (s : State) (l : Nat) (b : Byte) : (wrByte s l b).ended = s.ended := rfl
@[simp] theorem wrByte_dir (s : State) (l : Nat) (b : Byte) : (wrByte s l b).dir = s.dir := rfl
@[simp] theorem wrByte_chunksUsed (s : State) (l : Nat) (b : Byte) : (wrByte s l b).chunksUsed = s.chunksUsed := rfl
@[simp] theorem wrByte_fab (s : State) (l : Nat) (b : Byte) : (wrByte s l b).fab = s.fab := rfl
@[simp] theorem wrByte_host (s : State) (l : Nat) (b : Byte) : (wrByte s l b).host = s.host := rfl
@[simp] theorem wrByte_cycle (s : State) (l : Nat) (b : Byte) : (wrByte s l b).cycle = s.cycle := rfl
@[simp] theorem wrByte_draws (s : State) (l : Nat) (b : Byte) : (wrByte s l b).draws = s.draws := rfl

/-! ## setDev -/

@[simp] theorem setDev_mem (s : State) (o : Nat) (v : W64) : (setDev s o v).mem = s.mem := rfl
@[simp] theorem setDev_tags (s : State) (o : Nat) (v : W64) : (setDev s o v).tags = s.tags := rfl
@[simp] theorem setDev_poison (s : State) (o : Nat) (v : W64) : (setDev s o v).poison = s.poison := rfl
@[simp] theorem setDev_linePoison (s : State) (o : Nat) (v : W64) : (setDev s o v).linePoison = s.linePoison := rfl
@[simp] theorem setDev_authors (s : State) (o : Nat) (v : W64) : (setDev s o v).authors = s.authors := rfl
@[simp] theorem setDev_siteMap (s : State) (o : Nat) (v : W64) : (setDev s o v).siteMap = s.siteMap := rfl
@[simp] theorem setDev_fmap (s : State) (o : Nat) (v : W64) : (setDev s o v).fmap = s.fmap := rfl
@[simp] theorem setDev_cur (s : State) (o : Nat) (v : W64) : (setDev s o v).cur = s.cur := rfl
@[simp] theorem setDev_cx (s : State) (o : Nat) (v : W64) : (setDev s o v).cx = s.cx := rfl
@[simp] theorem setDev_others (s : State) (o : Nat) (v : W64) : (setDev s o v).others = s.others := rfl
@[simp] theorem setDev_cores (s : State) (o : Nat) (v : W64) : (setDev s o v).cores = s.cores := rfl
@[simp] theorem setDev_clusters (s : State) (o : Nat) (v : W64) : (setDev s o v).clusters = s.clusters := rfl
@[simp] theorem setDev_nodes (s : State) (o : Nat) (v : W64) : (setDev s o v).nodes = s.nodes := rfl
@[simp] theorem setDev_walkers (s : State) (o : Nat) (v : W64) : (setDev s o v).walkers = s.walkers := rfl
@[simp] theorem setDev_agtTlbs (s : State) (o : Nat) (v : W64) : (setDev s o v).agtTlbs = s.agtTlbs := rfl
@[simp] theorem setDev_unitBad (s : State) (o : Nat) (v : W64) : (setDev s o v).unitBad = s.unitBad := rfl
@[simp] theorem setDev_disp (s : State) (o : Nat) (v : W64) : (setDev s o v).disp = s.disp := rfl
@[simp] theorem setDev_engines (s : State) (o : Nat) (v : W64) : (setDev s o v).engines = s.engines := rfl
@[simp] theorem setDev_copyNext (s : State) (o : Nat) (v : W64) : (setDev s o v).copyNext = s.copyNext := rfl
@[simp] theorem setDev_domains (s : State) (o : Nat) (v : W64) : (setDev s o v).domains = s.domains := rfl
@[simp] theorem setDev_live (s : State) (o : Nat) (v : W64) : (setDev s o v).live = s.live := rfl
@[simp] theorem setDev_ended (s : State) (o : Nat) (v : W64) : (setDev s o v).ended = s.ended := rfl
@[simp] theorem setDev_dir (s : State) (o : Nat) (v : W64) : (setDev s o v).dir = s.dir := rfl
@[simp] theorem setDev_chunksUsed (s : State) (o : Nat) (v : W64) : (setDev s o v).chunksUsed = s.chunksUsed := rfl
@[simp] theorem setDev_fab (s : State) (o : Nat) (v : W64) : (setDev s o v).fab = s.fab := rfl
@[simp] theorem setDev_host (s : State) (o : Nat) (v : W64) : (setDev s o v).host = s.host := rfl
@[simp] theorem setDev_cycle (s : State) (o : Nat) (v : W64) : (setDev s o v).cycle = s.cycle := rfl
@[simp] theorem setDev_draws (s : State) (o : Nat) (v : W64) : (setDev s o v).draws = s.draws := rfl

/-! ## updCore -/

@[simp] theorem updCore_mem (s : State) (k : Nat) (f : Core → Core) : (updCore s k f).mem = s.mem := rfl
@[simp] theorem updCore_tags (s : State) (k : Nat) (f : Core → Core) : (updCore s k f).tags = s.tags := rfl
@[simp] theorem updCore_poison (s : State) (k : Nat) (f : Core → Core) : (updCore s k f).poison = s.poison := rfl
@[simp] theorem updCore_linePoison (s : State) (k : Nat) (f : Core → Core) : (updCore s k f).linePoison = s.linePoison := rfl
@[simp] theorem updCore_authors (s : State) (k : Nat) (f : Core → Core) : (updCore s k f).authors = s.authors := rfl
@[simp] theorem updCore_siteMap (s : State) (k : Nat) (f : Core → Core) : (updCore s k f).siteMap = s.siteMap := rfl
@[simp] theorem updCore_fmap (s : State) (k : Nat) (f : Core → Core) : (updCore s k f).fmap = s.fmap := rfl
@[simp] theorem updCore_dev (s : State) (k : Nat) (f : Core → Core) : (updCore s k f).dev = s.dev := rfl
@[simp] theorem updCore_cur (s : State) (k : Nat) (f : Core → Core) : (updCore s k f).cur = s.cur := rfl
@[simp] theorem updCore_cx (s : State) (k : Nat) (f : Core → Core) : (updCore s k f).cx = s.cx := rfl
@[simp] theorem updCore_others (s : State) (k : Nat) (f : Core → Core) : (updCore s k f).others = s.others := rfl
@[simp] theorem updCore_clusters (s : State) (k : Nat) (f : Core → Core) : (updCore s k f).clusters = s.clusters := rfl
@[simp] theorem updCore_nodes (s : State) (k : Nat) (f : Core → Core) : (updCore s k f).nodes = s.nodes := rfl
@[simp] theorem updCore_walkers (s : State) (k : Nat) (f : Core → Core) : (updCore s k f).walkers = s.walkers := rfl
@[simp] theorem updCore_agtTlbs (s : State) (k : Nat) (f : Core → Core) : (updCore s k f).agtTlbs = s.agtTlbs := rfl
@[simp] theorem updCore_unitBad (s : State) (k : Nat) (f : Core → Core) : (updCore s k f).unitBad = s.unitBad := rfl
@[simp] theorem updCore_disp (s : State) (k : Nat) (f : Core → Core) : (updCore s k f).disp = s.disp := rfl
@[simp] theorem updCore_engines (s : State) (k : Nat) (f : Core → Core) : (updCore s k f).engines = s.engines := rfl
@[simp] theorem updCore_copyNext (s : State) (k : Nat) (f : Core → Core) : (updCore s k f).copyNext = s.copyNext := rfl
@[simp] theorem updCore_domains (s : State) (k : Nat) (f : Core → Core) : (updCore s k f).domains = s.domains := rfl
@[simp] theorem updCore_live (s : State) (k : Nat) (f : Core → Core) : (updCore s k f).live = s.live := rfl
@[simp] theorem updCore_ended (s : State) (k : Nat) (f : Core → Core) : (updCore s k f).ended = s.ended := rfl
@[simp] theorem updCore_dir (s : State) (k : Nat) (f : Core → Core) : (updCore s k f).dir = s.dir := rfl
@[simp] theorem updCore_chunksUsed (s : State) (k : Nat) (f : Core → Core) : (updCore s k f).chunksUsed = s.chunksUsed := rfl
@[simp] theorem updCore_fab (s : State) (k : Nat) (f : Core → Core) : (updCore s k f).fab = s.fab := rfl
@[simp] theorem updCore_host (s : State) (k : Nat) (f : Core → Core) : (updCore s k f).host = s.host := rfl
@[simp] theorem updCore_cycle (s : State) (k : Nat) (f : Core → Core) : (updCore s k f).cycle = s.cycle := rfl
@[simp] theorem updCore_draws (s : State) (k : Nat) (f : Core → Core) : (updCore s k f).draws = s.draws := rfl

/-! ## updCluster -/

@[simp] theorem updCluster_mem (s : State) (k : Nat) (f : Cluster → Cluster) : (updCluster s k f).mem = s.mem := rfl
@[simp] theorem updCluster_tags (s : State) (k : Nat) (f : Cluster → Cluster) : (updCluster s k f).tags = s.tags := rfl
@[simp] theorem updCluster_poison (s : State) (k : Nat) (f : Cluster → Cluster) : (updCluster s k f).poison = s.poison := rfl
@[simp] theorem updCluster_linePoison (s : State) (k : Nat) (f : Cluster → Cluster) : (updCluster s k f).linePoison = s.linePoison := rfl
@[simp] theorem updCluster_authors (s : State) (k : Nat) (f : Cluster → Cluster) : (updCluster s k f).authors = s.authors := rfl
@[simp] theorem updCluster_siteMap (s : State) (k : Nat) (f : Cluster → Cluster) : (updCluster s k f).siteMap = s.siteMap := rfl
@[simp] theorem updCluster_fmap (s : State) (k : Nat) (f : Cluster → Cluster) : (updCluster s k f).fmap = s.fmap := rfl
@[simp] theorem updCluster_dev (s : State) (k : Nat) (f : Cluster → Cluster) : (updCluster s k f).dev = s.dev := rfl
@[simp] theorem updCluster_cur (s : State) (k : Nat) (f : Cluster → Cluster) : (updCluster s k f).cur = s.cur := rfl
@[simp] theorem updCluster_cx (s : State) (k : Nat) (f : Cluster → Cluster) : (updCluster s k f).cx = s.cx := rfl
@[simp] theorem updCluster_others (s : State) (k : Nat) (f : Cluster → Cluster) : (updCluster s k f).others = s.others := rfl
@[simp] theorem updCluster_cores (s : State) (k : Nat) (f : Cluster → Cluster) : (updCluster s k f).cores = s.cores := rfl
@[simp] theorem updCluster_nodes (s : State) (k : Nat) (f : Cluster → Cluster) : (updCluster s k f).nodes = s.nodes := rfl
@[simp] theorem updCluster_walkers (s : State) (k : Nat) (f : Cluster → Cluster) : (updCluster s k f).walkers = s.walkers := rfl
@[simp] theorem updCluster_agtTlbs (s : State) (k : Nat) (f : Cluster → Cluster) : (updCluster s k f).agtTlbs = s.agtTlbs := rfl
@[simp] theorem updCluster_unitBad (s : State) (k : Nat) (f : Cluster → Cluster) : (updCluster s k f).unitBad = s.unitBad := rfl
@[simp] theorem updCluster_disp (s : State) (k : Nat) (f : Cluster → Cluster) : (updCluster s k f).disp = s.disp := rfl
@[simp] theorem updCluster_engines (s : State) (k : Nat) (f : Cluster → Cluster) : (updCluster s k f).engines = s.engines := rfl
@[simp] theorem updCluster_copyNext (s : State) (k : Nat) (f : Cluster → Cluster) : (updCluster s k f).copyNext = s.copyNext := rfl
@[simp] theorem updCluster_domains (s : State) (k : Nat) (f : Cluster → Cluster) : (updCluster s k f).domains = s.domains := rfl
@[simp] theorem updCluster_live (s : State) (k : Nat) (f : Cluster → Cluster) : (updCluster s k f).live = s.live := rfl
@[simp] theorem updCluster_ended (s : State) (k : Nat) (f : Cluster → Cluster) : (updCluster s k f).ended = s.ended := rfl
@[simp] theorem updCluster_dir (s : State) (k : Nat) (f : Cluster → Cluster) : (updCluster s k f).dir = s.dir := rfl
@[simp] theorem updCluster_chunksUsed (s : State) (k : Nat) (f : Cluster → Cluster) : (updCluster s k f).chunksUsed = s.chunksUsed := rfl
@[simp] theorem updCluster_fab (s : State) (k : Nat) (f : Cluster → Cluster) : (updCluster s k f).fab = s.fab := rfl
@[simp] theorem updCluster_host (s : State) (k : Nat) (f : Cluster → Cluster) : (updCluster s k f).host = s.host := rfl
@[simp] theorem updCluster_cycle (s : State) (k : Nat) (f : Cluster → Cluster) : (updCluster s k f).cycle = s.cycle := rfl
@[simp] theorem updCluster_draws (s : State) (k : Nat) (f : Cluster → Cluster) : (updCluster s k f).draws = s.draws := rfl

/-! ## updNode -/

@[simp] theorem updNode_mem (s : State) (k : Nat) (f : Node → Node) : (updNode s k f).mem = s.mem := rfl
@[simp] theorem updNode_tags (s : State) (k : Nat) (f : Node → Node) : (updNode s k f).tags = s.tags := rfl
@[simp] theorem updNode_poison (s : State) (k : Nat) (f : Node → Node) : (updNode s k f).poison = s.poison := rfl
@[simp] theorem updNode_linePoison (s : State) (k : Nat) (f : Node → Node) : (updNode s k f).linePoison = s.linePoison := rfl
@[simp] theorem updNode_authors (s : State) (k : Nat) (f : Node → Node) : (updNode s k f).authors = s.authors := rfl
@[simp] theorem updNode_siteMap (s : State) (k : Nat) (f : Node → Node) : (updNode s k f).siteMap = s.siteMap := rfl
@[simp] theorem updNode_fmap (s : State) (k : Nat) (f : Node → Node) : (updNode s k f).fmap = s.fmap := rfl
@[simp] theorem updNode_dev (s : State) (k : Nat) (f : Node → Node) : (updNode s k f).dev = s.dev := rfl
@[simp] theorem updNode_cur (s : State) (k : Nat) (f : Node → Node) : (updNode s k f).cur = s.cur := rfl
@[simp] theorem updNode_cx (s : State) (k : Nat) (f : Node → Node) : (updNode s k f).cx = s.cx := rfl
@[simp] theorem updNode_others (s : State) (k : Nat) (f : Node → Node) : (updNode s k f).others = s.others := rfl
@[simp] theorem updNode_cores (s : State) (k : Nat) (f : Node → Node) : (updNode s k f).cores = s.cores := rfl
@[simp] theorem updNode_clusters (s : State) (k : Nat) (f : Node → Node) : (updNode s k f).clusters = s.clusters := rfl
@[simp] theorem updNode_walkers (s : State) (k : Nat) (f : Node → Node) : (updNode s k f).walkers = s.walkers := rfl
@[simp] theorem updNode_agtTlbs (s : State) (k : Nat) (f : Node → Node) : (updNode s k f).agtTlbs = s.agtTlbs := rfl
@[simp] theorem updNode_unitBad (s : State) (k : Nat) (f : Node → Node) : (updNode s k f).unitBad = s.unitBad := rfl
@[simp] theorem updNode_disp (s : State) (k : Nat) (f : Node → Node) : (updNode s k f).disp = s.disp := rfl
@[simp] theorem updNode_engines (s : State) (k : Nat) (f : Node → Node) : (updNode s k f).engines = s.engines := rfl
@[simp] theorem updNode_copyNext (s : State) (k : Nat) (f : Node → Node) : (updNode s k f).copyNext = s.copyNext := rfl
@[simp] theorem updNode_domains (s : State) (k : Nat) (f : Node → Node) : (updNode s k f).domains = s.domains := rfl
@[simp] theorem updNode_live (s : State) (k : Nat) (f : Node → Node) : (updNode s k f).live = s.live := rfl
@[simp] theorem updNode_ended (s : State) (k : Nat) (f : Node → Node) : (updNode s k f).ended = s.ended := rfl
@[simp] theorem updNode_dir (s : State) (k : Nat) (f : Node → Node) : (updNode s k f).dir = s.dir := rfl
@[simp] theorem updNode_chunksUsed (s : State) (k : Nat) (f : Node → Node) : (updNode s k f).chunksUsed = s.chunksUsed := rfl
@[simp] theorem updNode_fab (s : State) (k : Nat) (f : Node → Node) : (updNode s k f).fab = s.fab := rfl
@[simp] theorem updNode_host (s : State) (k : Nat) (f : Node → Node) : (updNode s k f).host = s.host := rfl
@[simp] theorem updNode_cycle (s : State) (k : Nat) (f : Node → Node) : (updNode s k f).cycle = s.cycle := rfl
@[simp] theorem updNode_draws (s : State) (k : Nat) (f : Node → Node) : (updNode s k f).draws = s.draws := rfl

/-! ## updWalker -/

@[simp] theorem updWalker_mem (s : State) (k : Nat) (f : Walker → Walker) : (updWalker s k f).mem = s.mem := rfl
@[simp] theorem updWalker_tags (s : State) (k : Nat) (f : Walker → Walker) : (updWalker s k f).tags = s.tags := rfl
@[simp] theorem updWalker_poison (s : State) (k : Nat) (f : Walker → Walker) : (updWalker s k f).poison = s.poison := rfl
@[simp] theorem updWalker_linePoison (s : State) (k : Nat) (f : Walker → Walker) : (updWalker s k f).linePoison = s.linePoison := rfl
@[simp] theorem updWalker_authors (s : State) (k : Nat) (f : Walker → Walker) : (updWalker s k f).authors = s.authors := rfl
@[simp] theorem updWalker_siteMap (s : State) (k : Nat) (f : Walker → Walker) : (updWalker s k f).siteMap = s.siteMap := rfl
@[simp] theorem updWalker_fmap (s : State) (k : Nat) (f : Walker → Walker) : (updWalker s k f).fmap = s.fmap := rfl
@[simp] theorem updWalker_dev (s : State) (k : Nat) (f : Walker → Walker) : (updWalker s k f).dev = s.dev := rfl
@[simp] theorem updWalker_cur (s : State) (k : Nat) (f : Walker → Walker) : (updWalker s k f).cur = s.cur := rfl
@[simp] theorem updWalker_cx (s : State) (k : Nat) (f : Walker → Walker) : (updWalker s k f).cx = s.cx := rfl
@[simp] theorem updWalker_others (s : State) (k : Nat) (f : Walker → Walker) : (updWalker s k f).others = s.others := rfl
@[simp] theorem updWalker_cores (s : State) (k : Nat) (f : Walker → Walker) : (updWalker s k f).cores = s.cores := rfl
@[simp] theorem updWalker_clusters (s : State) (k : Nat) (f : Walker → Walker) : (updWalker s k f).clusters = s.clusters := rfl
@[simp] theorem updWalker_nodes (s : State) (k : Nat) (f : Walker → Walker) : (updWalker s k f).nodes = s.nodes := rfl
@[simp] theorem updWalker_disp (s : State) (k : Nat) (f : Walker → Walker) : (updWalker s k f).disp = s.disp := rfl
@[simp] theorem updWalker_engines (s : State) (k : Nat) (f : Walker → Walker) : (updWalker s k f).engines = s.engines := rfl
@[simp] theorem updWalker_copyNext (s : State) (k : Nat) (f : Walker → Walker) : (updWalker s k f).copyNext = s.copyNext := rfl
@[simp] theorem updWalker_domains (s : State) (k : Nat) (f : Walker → Walker) : (updWalker s k f).domains = s.domains := rfl
@[simp] theorem updWalker_live (s : State) (k : Nat) (f : Walker → Walker) : (updWalker s k f).live = s.live := rfl
@[simp] theorem updWalker_ended (s : State) (k : Nat) (f : Walker → Walker) : (updWalker s k f).ended = s.ended := rfl
@[simp] theorem updWalker_dir (s : State) (k : Nat) (f : Walker → Walker) : (updWalker s k f).dir = s.dir := rfl
@[simp] theorem updWalker_chunksUsed (s : State) (k : Nat) (f : Walker → Walker) : (updWalker s k f).chunksUsed = s.chunksUsed := rfl
@[simp] theorem updWalker_fab (s : State) (k : Nat) (f : Walker → Walker) : (updWalker s k f).fab = s.fab := rfl
@[simp] theorem updWalker_host (s : State) (k : Nat) (f : Walker → Walker) : (updWalker s k f).host = s.host := rfl
@[simp] theorem updWalker_cycle (s : State) (k : Nat) (f : Walker → Walker) : (updWalker s k f).cycle = s.cycle := rfl
@[simp] theorem updWalker_draws (s : State) (k : Nat) (f : Walker → Walker) : (updWalker s k f).draws = s.draws := rfl
@[simp] theorem updWalker_agtTlbs (s : State) (k : Nat) (f : Walker → Walker) : (updWalker s k f).agtTlbs = s.agtTlbs := rfl
@[simp] theorem updWalker_unitBad (s : State) (k : Nat) (f : Walker → Walker) : (updWalker s k f).unitBad = s.unitBad := rfl

/-! ## updDisp -/

@[simp] theorem updDisp_mem (s : State) (k : Nat) (f : Dispatcher → Dispatcher) : (updDisp s k f).mem = s.mem := rfl
@[simp] theorem updDisp_tags (s : State) (k : Nat) (f : Dispatcher → Dispatcher) : (updDisp s k f).tags = s.tags := rfl
@[simp] theorem updDisp_poison (s : State) (k : Nat) (f : Dispatcher → Dispatcher) : (updDisp s k f).poison = s.poison := rfl
@[simp] theorem updDisp_linePoison (s : State) (k : Nat) (f : Dispatcher → Dispatcher) : (updDisp s k f).linePoison = s.linePoison := rfl
@[simp] theorem updDisp_authors (s : State) (k : Nat) (f : Dispatcher → Dispatcher) : (updDisp s k f).authors = s.authors := rfl
@[simp] theorem updDisp_siteMap (s : State) (k : Nat) (f : Dispatcher → Dispatcher) : (updDisp s k f).siteMap = s.siteMap := rfl
@[simp] theorem updDisp_fmap (s : State) (k : Nat) (f : Dispatcher → Dispatcher) : (updDisp s k f).fmap = s.fmap := rfl
@[simp] theorem updDisp_dev (s : State) (k : Nat) (f : Dispatcher → Dispatcher) : (updDisp s k f).dev = s.dev := rfl
@[simp] theorem updDisp_cur (s : State) (k : Nat) (f : Dispatcher → Dispatcher) : (updDisp s k f).cur = s.cur := rfl
@[simp] theorem updDisp_cx (s : State) (k : Nat) (f : Dispatcher → Dispatcher) : (updDisp s k f).cx = s.cx := rfl
@[simp] theorem updDisp_others (s : State) (k : Nat) (f : Dispatcher → Dispatcher) : (updDisp s k f).others = s.others := rfl
@[simp] theorem updDisp_cores (s : State) (k : Nat) (f : Dispatcher → Dispatcher) : (updDisp s k f).cores = s.cores := rfl
@[simp] theorem updDisp_clusters (s : State) (k : Nat) (f : Dispatcher → Dispatcher) : (updDisp s k f).clusters = s.clusters := rfl
@[simp] theorem updDisp_nodes (s : State) (k : Nat) (f : Dispatcher → Dispatcher) : (updDisp s k f).nodes = s.nodes := rfl
@[simp] theorem updDisp_walkers (s : State) (k : Nat) (f : Dispatcher → Dispatcher) : (updDisp s k f).walkers = s.walkers := rfl
@[simp] theorem updDisp_agtTlbs (s : State) (k : Nat) (f : Dispatcher → Dispatcher) : (updDisp s k f).agtTlbs = s.agtTlbs := rfl
@[simp] theorem updDisp_unitBad (s : State) (k : Nat) (f : Dispatcher → Dispatcher) : (updDisp s k f).unitBad = s.unitBad := rfl
@[simp] theorem updDisp_engines (s : State) (k : Nat) (f : Dispatcher → Dispatcher) : (updDisp s k f).engines = s.engines := rfl
@[simp] theorem updDisp_copyNext (s : State) (k : Nat) (f : Dispatcher → Dispatcher) : (updDisp s k f).copyNext = s.copyNext := rfl
@[simp] theorem updDisp_domains (s : State) (k : Nat) (f : Dispatcher → Dispatcher) : (updDisp s k f).domains = s.domains := rfl
@[simp] theorem updDisp_live (s : State) (k : Nat) (f : Dispatcher → Dispatcher) : (updDisp s k f).live = s.live := rfl
@[simp] theorem updDisp_ended (s : State) (k : Nat) (f : Dispatcher → Dispatcher) : (updDisp s k f).ended = s.ended := rfl
@[simp] theorem updDisp_dir (s : State) (k : Nat) (f : Dispatcher → Dispatcher) : (updDisp s k f).dir = s.dir := rfl
@[simp] theorem updDisp_chunksUsed (s : State) (k : Nat) (f : Dispatcher → Dispatcher) : (updDisp s k f).chunksUsed = s.chunksUsed := rfl
@[simp] theorem updDisp_fab (s : State) (k : Nat) (f : Dispatcher → Dispatcher) : (updDisp s k f).fab = s.fab := rfl
@[simp] theorem updDisp_host (s : State) (k : Nat) (f : Dispatcher → Dispatcher) : (updDisp s k f).host = s.host := rfl
@[simp] theorem updDisp_cycle (s : State) (k : Nat) (f : Dispatcher → Dispatcher) : (updDisp s k f).cycle = s.cycle := rfl
@[simp] theorem updDisp_draws (s : State) (k : Nat) (f : Dispatcher → Dispatcher) : (updDisp s k f).draws = s.draws := rfl

/-! ## updEngine -/

@[simp] theorem updEngine_mem (s : State) (k : Nat) (f : Engine → Engine) : (updEngine s k f).mem = s.mem := rfl
@[simp] theorem updEngine_tags (s : State) (k : Nat) (f : Engine → Engine) : (updEngine s k f).tags = s.tags := rfl
@[simp] theorem updEngine_poison (s : State) (k : Nat) (f : Engine → Engine) : (updEngine s k f).poison = s.poison := rfl
@[simp] theorem updEngine_linePoison (s : State) (k : Nat) (f : Engine → Engine) : (updEngine s k f).linePoison = s.linePoison := rfl
@[simp] theorem updEngine_authors (s : State) (k : Nat) (f : Engine → Engine) : (updEngine s k f).authors = s.authors := rfl
@[simp] theorem updEngine_siteMap (s : State) (k : Nat) (f : Engine → Engine) : (updEngine s k f).siteMap = s.siteMap := rfl
@[simp] theorem updEngine_fmap (s : State) (k : Nat) (f : Engine → Engine) : (updEngine s k f).fmap = s.fmap := rfl
@[simp] theorem updEngine_dev (s : State) (k : Nat) (f : Engine → Engine) : (updEngine s k f).dev = s.dev := rfl
@[simp] theorem updEngine_cur (s : State) (k : Nat) (f : Engine → Engine) : (updEngine s k f).cur = s.cur := rfl
@[simp] theorem updEngine_cx (s : State) (k : Nat) (f : Engine → Engine) : (updEngine s k f).cx = s.cx := rfl
@[simp] theorem updEngine_others (s : State) (k : Nat) (f : Engine → Engine) : (updEngine s k f).others = s.others := rfl
@[simp] theorem updEngine_cores (s : State) (k : Nat) (f : Engine → Engine) : (updEngine s k f).cores = s.cores := rfl
@[simp] theorem updEngine_clusters (s : State) (k : Nat) (f : Engine → Engine) : (updEngine s k f).clusters = s.clusters := rfl
@[simp] theorem updEngine_nodes (s : State) (k : Nat) (f : Engine → Engine) : (updEngine s k f).nodes = s.nodes := rfl
@[simp] theorem updEngine_walkers (s : State) (k : Nat) (f : Engine → Engine) : (updEngine s k f).walkers = s.walkers := rfl
@[simp] theorem updEngine_agtTlbs (s : State) (k : Nat) (f : Engine → Engine) : (updEngine s k f).agtTlbs = s.agtTlbs := rfl
@[simp] theorem updEngine_unitBad (s : State) (k : Nat) (f : Engine → Engine) : (updEngine s k f).unitBad = s.unitBad := rfl
@[simp] theorem updEngine_disp (s : State) (k : Nat) (f : Engine → Engine) : (updEngine s k f).disp = s.disp := rfl
@[simp] theorem updEngine_copyNext (s : State) (k : Nat) (f : Engine → Engine) : (updEngine s k f).copyNext = s.copyNext := rfl
@[simp] theorem updEngine_domains (s : State) (k : Nat) (f : Engine → Engine) : (updEngine s k f).domains = s.domains := rfl
@[simp] theorem updEngine_live (s : State) (k : Nat) (f : Engine → Engine) : (updEngine s k f).live = s.live := rfl
@[simp] theorem updEngine_ended (s : State) (k : Nat) (f : Engine → Engine) : (updEngine s k f).ended = s.ended := rfl
@[simp] theorem updEngine_dir (s : State) (k : Nat) (f : Engine → Engine) : (updEngine s k f).dir = s.dir := rfl
@[simp] theorem updEngine_chunksUsed (s : State) (k : Nat) (f : Engine → Engine) : (updEngine s k f).chunksUsed = s.chunksUsed := rfl
@[simp] theorem updEngine_fab (s : State) (k : Nat) (f : Engine → Engine) : (updEngine s k f).fab = s.fab := rfl
@[simp] theorem updEngine_host (s : State) (k : Nat) (f : Engine → Engine) : (updEngine s k f).host = s.host := rfl
@[simp] theorem updEngine_cycle (s : State) (k : Nat) (f : Engine → Engine) : (updEngine s k f).cycle = s.cycle := rfl
@[simp] theorem updEngine_draws (s : State) (k : Nat) (f : Engine → Engine) : (updEngine s k f).draws = s.draws := rfl

/-! ## updDomain -/

@[simp] theorem updDomain_mem (s : State) (k : Nat) (f : Domain → Domain) : (updDomain s k f).mem = s.mem := rfl
@[simp] theorem updDomain_tags (s : State) (k : Nat) (f : Domain → Domain) : (updDomain s k f).tags = s.tags := rfl
@[simp] theorem updDomain_poison (s : State) (k : Nat) (f : Domain → Domain) : (updDomain s k f).poison = s.poison := rfl
@[simp] theorem updDomain_linePoison (s : State) (k : Nat) (f : Domain → Domain) : (updDomain s k f).linePoison = s.linePoison := rfl
@[simp] theorem updDomain_authors (s : State) (k : Nat) (f : Domain → Domain) : (updDomain s k f).authors = s.authors := rfl
@[simp] theorem updDomain_siteMap (s : State) (k : Nat) (f : Domain → Domain) : (updDomain s k f).siteMap = s.siteMap := rfl
@[simp] theorem updDomain_fmap (s : State) (k : Nat) (f : Domain → Domain) : (updDomain s k f).fmap = s.fmap := rfl
@[simp] theorem updDomain_dev (s : State) (k : Nat) (f : Domain → Domain) : (updDomain s k f).dev = s.dev := rfl
@[simp] theorem updDomain_cur (s : State) (k : Nat) (f : Domain → Domain) : (updDomain s k f).cur = s.cur := rfl
@[simp] theorem updDomain_cx (s : State) (k : Nat) (f : Domain → Domain) : (updDomain s k f).cx = s.cx := rfl
@[simp] theorem updDomain_others (s : State) (k : Nat) (f : Domain → Domain) : (updDomain s k f).others = s.others := rfl
@[simp] theorem updDomain_cores (s : State) (k : Nat) (f : Domain → Domain) : (updDomain s k f).cores = s.cores := rfl
@[simp] theorem updDomain_clusters (s : State) (k : Nat) (f : Domain → Domain) : (updDomain s k f).clusters = s.clusters := rfl
@[simp] theorem updDomain_nodes (s : State) (k : Nat) (f : Domain → Domain) : (updDomain s k f).nodes = s.nodes := rfl
@[simp] theorem updDomain_walkers (s : State) (k : Nat) (f : Domain → Domain) : (updDomain s k f).walkers = s.walkers := rfl
@[simp] theorem updDomain_agtTlbs (s : State) (k : Nat) (f : Domain → Domain) : (updDomain s k f).agtTlbs = s.agtTlbs := rfl
@[simp] theorem updDomain_unitBad (s : State) (k : Nat) (f : Domain → Domain) : (updDomain s k f).unitBad = s.unitBad := rfl
@[simp] theorem updDomain_disp (s : State) (k : Nat) (f : Domain → Domain) : (updDomain s k f).disp = s.disp := rfl
@[simp] theorem updDomain_engines (s : State) (k : Nat) (f : Domain → Domain) : (updDomain s k f).engines = s.engines := rfl
@[simp] theorem updDomain_copyNext (s : State) (k : Nat) (f : Domain → Domain) : (updDomain s k f).copyNext = s.copyNext := rfl
@[simp] theorem updDomain_live (s : State) (k : Nat) (f : Domain → Domain) : (updDomain s k f).live = s.live := rfl
@[simp] theorem updDomain_ended (s : State) (k : Nat) (f : Domain → Domain) : (updDomain s k f).ended = s.ended := rfl
@[simp] theorem updDomain_dir (s : State) (k : Nat) (f : Domain → Domain) : (updDomain s k f).dir = s.dir := rfl
@[simp] theorem updDomain_chunksUsed (s : State) (k : Nat) (f : Domain → Domain) : (updDomain s k f).chunksUsed = s.chunksUsed := rfl
@[simp] theorem updDomain_fab (s : State) (k : Nat) (f : Domain → Domain) : (updDomain s k f).fab = s.fab := rfl
@[simp] theorem updDomain_host (s : State) (k : Nat) (f : Domain → Domain) : (updDomain s k f).host = s.host := rfl
@[simp] theorem updDomain_cycle (s : State) (k : Nat) (f : Domain → Domain) : (updDomain s k f).cycle = s.cycle := rfl
@[simp] theorem updDomain_draws (s : State) (k : Nat) (f : Domain → Domain) : (updDomain s k f).draws = s.draws := rfl

/-! ## updCell -/

@[simp] theorem updCell_mem (s : State) (k : Nat) (f : Cell → Cell) : (updCell s k f).mem = s.mem := rfl
@[simp] theorem updCell_tags (s : State) (k : Nat) (f : Cell → Cell) : (updCell s k f).tags = s.tags := rfl
@[simp] theorem updCell_poison (s : State) (k : Nat) (f : Cell → Cell) : (updCell s k f).poison = s.poison := rfl
@[simp] theorem updCell_linePoison (s : State) (k : Nat) (f : Cell → Cell) : (updCell s k f).linePoison = s.linePoison := rfl
@[simp] theorem updCell_authors (s : State) (k : Nat) (f : Cell → Cell) : (updCell s k f).authors = s.authors := rfl
@[simp] theorem updCell_siteMap (s : State) (k : Nat) (f : Cell → Cell) : (updCell s k f).siteMap = s.siteMap := rfl
@[simp] theorem updCell_fmap (s : State) (k : Nat) (f : Cell → Cell) : (updCell s k f).fmap = s.fmap := rfl
@[simp] theorem updCell_dev (s : State) (k : Nat) (f : Cell → Cell) : (updCell s k f).dev = s.dev := rfl
@[simp] theorem updCell_cur (s : State) (k : Nat) (f : Cell → Cell) : (updCell s k f).cur = s.cur := rfl
@[simp] theorem updCell_cx (s : State) (k : Nat) (f : Cell → Cell) : (updCell s k f).cx = s.cx := rfl
@[simp] theorem updCell_others (s : State) (k : Nat) (f : Cell → Cell) : (updCell s k f).others = s.others := rfl
@[simp] theorem updCell_cores (s : State) (k : Nat) (f : Cell → Cell) : (updCell s k f).cores = s.cores := rfl
@[simp] theorem updCell_clusters (s : State) (k : Nat) (f : Cell → Cell) : (updCell s k f).clusters = s.clusters := rfl
@[simp] theorem updCell_nodes (s : State) (k : Nat) (f : Cell → Cell) : (updCell s k f).nodes = s.nodes := rfl
@[simp] theorem updCell_walkers (s : State) (k : Nat) (f : Cell → Cell) : (updCell s k f).walkers = s.walkers := rfl
@[simp] theorem updCell_agtTlbs (s : State) (k : Nat) (f : Cell → Cell) : (updCell s k f).agtTlbs = s.agtTlbs := rfl
@[simp] theorem updCell_unitBad (s : State) (k : Nat) (f : Cell → Cell) : (updCell s k f).unitBad = s.unitBad := rfl
@[simp] theorem updCell_disp (s : State) (k : Nat) (f : Cell → Cell) : (updCell s k f).disp = s.disp := rfl
@[simp] theorem updCell_engines (s : State) (k : Nat) (f : Cell → Cell) : (updCell s k f).engines = s.engines := rfl
@[simp] theorem updCell_copyNext (s : State) (k : Nat) (f : Cell → Cell) : (updCell s k f).copyNext = s.copyNext := rfl
@[simp] theorem updCell_domains (s : State) (k : Nat) (f : Cell → Cell) : (updCell s k f).domains = s.domains := rfl
@[simp] theorem updCell_live (s : State) (k : Nat) (f : Cell → Cell) : (updCell s k f).live = s.live := rfl
@[simp] theorem updCell_ended (s : State) (k : Nat) (f : Cell → Cell) : (updCell s k f).ended = s.ended := rfl
@[simp] theorem updCell_dir (s : State) (k : Nat) (f : Cell → Cell) : (updCell s k f).dir = s.dir := rfl
@[simp] theorem updCell_chunksUsed (s : State) (k : Nat) (f : Cell → Cell) : (updCell s k f).chunksUsed = s.chunksUsed := rfl
@[simp] theorem updCell_host (s : State) (k : Nat) (f : Cell → Cell) : (updCell s k f).host = s.host := rfl
@[simp] theorem updCell_cycle (s : State) (k : Nat) (f : Cell → Cell) : (updCell s k f).cycle = s.cycle := rfl
@[simp] theorem updCell_draws (s : State) (k : Nat) (f : Cell → Cell) : (updCell s k f).draws = s.draws := rfl

/-! ## updEndp -/

@[simp] theorem updEndp_mem (s : State) (k : Nat) (f : Endp → Endp) : (updEndp s k f).mem = s.mem := rfl
@[simp] theorem updEndp_tags (s : State) (k : Nat) (f : Endp → Endp) : (updEndp s k f).tags = s.tags := rfl
@[simp] theorem updEndp_poison (s : State) (k : Nat) (f : Endp → Endp) : (updEndp s k f).poison = s.poison := rfl
@[simp] theorem updEndp_linePoison (s : State) (k : Nat) (f : Endp → Endp) : (updEndp s k f).linePoison = s.linePoison := rfl
@[simp] theorem updEndp_authors (s : State) (k : Nat) (f : Endp → Endp) : (updEndp s k f).authors = s.authors := rfl
@[simp] theorem updEndp_siteMap (s : State) (k : Nat) (f : Endp → Endp) : (updEndp s k f).siteMap = s.siteMap := rfl
@[simp] theorem updEndp_fmap (s : State) (k : Nat) (f : Endp → Endp) : (updEndp s k f).fmap = s.fmap := rfl
@[simp] theorem updEndp_dev (s : State) (k : Nat) (f : Endp → Endp) : (updEndp s k f).dev = s.dev := rfl
@[simp] theorem updEndp_cur (s : State) (k : Nat) (f : Endp → Endp) : (updEndp s k f).cur = s.cur := rfl
@[simp] theorem updEndp_cx (s : State) (k : Nat) (f : Endp → Endp) : (updEndp s k f).cx = s.cx := rfl
@[simp] theorem updEndp_others (s : State) (k : Nat) (f : Endp → Endp) : (updEndp s k f).others = s.others := rfl
@[simp] theorem updEndp_cores (s : State) (k : Nat) (f : Endp → Endp) : (updEndp s k f).cores = s.cores := rfl
@[simp] theorem updEndp_clusters (s : State) (k : Nat) (f : Endp → Endp) : (updEndp s k f).clusters = s.clusters := rfl
@[simp] theorem updEndp_nodes (s : State) (k : Nat) (f : Endp → Endp) : (updEndp s k f).nodes = s.nodes := rfl
@[simp] theorem updEndp_walkers (s : State) (k : Nat) (f : Endp → Endp) : (updEndp s k f).walkers = s.walkers := rfl
@[simp] theorem updEndp_agtTlbs (s : State) (k : Nat) (f : Endp → Endp) : (updEndp s k f).agtTlbs = s.agtTlbs := rfl
@[simp] theorem updEndp_unitBad (s : State) (k : Nat) (f : Endp → Endp) : (updEndp s k f).unitBad = s.unitBad := rfl
@[simp] theorem updEndp_disp (s : State) (k : Nat) (f : Endp → Endp) : (updEndp s k f).disp = s.disp := rfl
@[simp] theorem updEndp_engines (s : State) (k : Nat) (f : Endp → Endp) : (updEndp s k f).engines = s.engines := rfl
@[simp] theorem updEndp_copyNext (s : State) (k : Nat) (f : Endp → Endp) : (updEndp s k f).copyNext = s.copyNext := rfl
@[simp] theorem updEndp_domains (s : State) (k : Nat) (f : Endp → Endp) : (updEndp s k f).domains = s.domains := rfl
@[simp] theorem updEndp_live (s : State) (k : Nat) (f : Endp → Endp) : (updEndp s k f).live = s.live := rfl
@[simp] theorem updEndp_ended (s : State) (k : Nat) (f : Endp → Endp) : (updEndp s k f).ended = s.ended := rfl
@[simp] theorem updEndp_dir (s : State) (k : Nat) (f : Endp → Endp) : (updEndp s k f).dir = s.dir := rfl
@[simp] theorem updEndp_chunksUsed (s : State) (k : Nat) (f : Endp → Endp) : (updEndp s k f).chunksUsed = s.chunksUsed := rfl
@[simp] theorem updEndp_host (s : State) (k : Nat) (f : Endp → Endp) : (updEndp s k f).host = s.host := rfl
@[simp] theorem updEndp_cycle (s : State) (k : Nat) (f : Endp → Endp) : (updEndp s k f).cycle = s.cycle := rfl
@[simp] theorem updEndp_draws (s : State) (k : Nat) (f : Endp → Endp) : (updEndp s k f).draws = s.draws := rfl

/-! ## setG and setP: a register write changes the registers of its class alone -/

@[simp] theorem setG_task (c : Ctx) (i : Nat) (v : W64) : (setG c i v).task = c.task := by
  by_cases h : i = 0 <;> by_cases h8 : i < 8 <;> simp [setG, h, h8]
@[simp] theorem setG_ir (c : Ctx) (i : Nat) (v : W64) : (setG c i v).ir = c.ir := by
  by_cases h : i = 0 <;> by_cases h8 : i < 8 <;> simp [setG, h, h8]
@[simp] theorem setG_starting (c : Ctx) (i : Nat) (v : W64) : (setG c i v).starting = c.starting := by
  by_cases h : i = 0 <;> by_cases h8 : i < 8 <;> simp [setG, h, h8]
@[simp] theorem setG_wait (c : Ctx) (i : Nat) (v : W64) : (setG c i v).wait = c.wait := by
  by_cases h : i = 0 <;> by_cases h8 : i < 8 <;> simp [setG, h, h8]
@[simp] theorem setG_got (c : Ctx) (i : Nat) (v : W64) : (setG c i v).got = c.got := by
  by_cases h : i = 0 <;> by_cases h8 : i < 8 <;> simp [setG, h, h8]
@[simp] theorem setG_pc (c : Ctx) (i : Nat) (v : W64) : (setG c i v).pc = c.pc := by
  by_cases h : i = 0 <;> by_cases h8 : i < 8 <;> simp [setG, h, h8]
@[simp] theorem setG_v (c : Ctx) (i : Nat) (v : W64) : (setG c i v).v = c.v := by
  by_cases h : i = 0 <;> by_cases h8 : i < 8 <;> simp [setG, h, h8]
@[simp] theorem setG_p (c : Ctx) (i : Nat) (v : W64) : (setG c i v).p = c.p := by
  by_cases h : i = 0 <;> by_cases h8 : i < 8 <;> simp [setG, h, h8]
@[simp] theorem setG_k (c : Ctx) (i : Nat) (v : W64) : (setG c i v).k = c.k := by
  by_cases h : i = 0 <;> by_cases h8 : i < 8 <;> simp [setG, h, h8]
@[simp] theorem setG_lc (c : Ctx) (i : Nat) (v : W64) : (setG c i v).lc = c.lc := by
  by_cases h : i = 0 <;> by_cases h8 : i < 8 <;> simp [setG, h, h8]
@[simp] theorem setG_fb (c : Ctx) (i : Nat) (v : W64) : (setG c i v).fb = c.fb := by
  by_cases h : i = 0 <;> by_cases h8 : i < 8 <;> simp [setG, h, h8]
@[simp] theorem setG_bsp (c : Ctx) (i : Nat) (v : W64) : (setG c i v).bsp = c.bsp := by
  by_cases h : i = 0 <;> by_cases h8 : i < 8 <;> simp [setG, h, h8]
@[simp] theorem setG_bsl (c : Ctx) (i : Nat) (v : W64) : (setG c i v).bsl = c.bsl := by
  by_cases h : i = 0 <;> by_cases h8 : i < 8 <;> simp [setG, h, h8]
@[simp] theorem setG_size (c : Ctx) (i : Nat) (v : W64) : (setG c i v).size = c.size := by
  by_cases h : i = 0 <;> by_cases h8 : i < 8 <;> simp [setG, h, h8]
@[simp] theorem setG_rlo (c : Ctx) (i : Nat) (v : W64) : (setG c i v).rlo = c.rlo := by
  by_cases h : i = 0 <;> by_cases h8 : i < 8 <;> simp [setG, h, h8]
@[simp] theorem setG_mode (c : Ctx) (i : Nat) (v : W64) : (setG c i v).mode = c.mode := by
  by_cases h : i = 0 <;> by_cases h8 : i < 8 <;> simp [setG, h, h8]
@[simp] theorem setG_pmode (c : Ctx) (i : Nat) (v : W64) : (setG c i v).pmode = c.pmode := by
  by_cases h : i = 0 <;> by_cases h8 : i < 8 <;> simp [setG, h, h8]
@[simp] theorem setG_cause (c : Ctx) (i : Nat) (v : W64) : (setG c i v).cause = c.cause := by
  by_cases h : i = 0 <;> by_cases h8 : i < 8 <;> simp [setG, h, h8]
@[simp] theorem setG_epc (c : Ctx) (i : Nat) (v : W64) : (setG c i v).epc = c.epc := by
  by_cases h : i = 0 <;> by_cases h8 : i < 8 <;> simp [setG, h, h8]
@[simp] theorem setG_fault (c : Ctx) (i : Nat) (v : W64) : (setG c i v).fault = c.fault := by
  by_cases h : i = 0 <;> by_cases h8 : i < 8 <;> simp [setG, h, h8]
@[simp] theorem setG_ports (c : Ctx) (i : Nat) (v : W64) : (setG c i v).ports = c.ports := by
  by_cases h : i = 0 <;> by_cases h8 : i < 8 <;> simp [setG, h, h8]
@[simp] theorem setG_ev (c : Ctx) (i : Nat) (v : W64) : (setG c i v).ev = c.ev := by
  by_cases h : i = 0 <;> by_cases h8 : i < 8 <;> simp [setG, h, h8]
@[simp] theorem setG_group (c : Ctx) (i : Nat) (v : W64) : (setG c i v).group = c.group := by
  by_cases h : i = 0 <;> by_cases h8 : i < 8 <;> simp [setG, h, h8]
@[simp] theorem setG_posted (c : Ctx) (i : Nat) (v : W64) : (setG c i v).posted = c.posted := by
  by_cases h : i = 0 <;> by_cases h8 : i < 8 <;> simp [setG, h, h8]
@[simp] theorem setG_trapNext (c : Ctx) (i : Nat) (v : W64) : (setG c i v).trapNext = c.trapNext := by
  by_cases h : i = 0 <;> by_cases h8 : i < 8 <;> simp [setG, h, h8]
@[simp] theorem setG_sb (c : Ctx) (i : Nat) (v : W64) : (setG c i v).sb = c.sb := by
  by_cases h : i = 0 <;> by_cases h8 : i < 8 <;> simp [setG, h, h8]
@[simp] theorem setG_journal (c : Ctx) (i : Nat) (v : W64) : (setG c i v).journal = c.journal := by
  by_cases h : i = 0 <;> by_cases h8 : i < 8 <;> simp [setG, h, h8]
@[simp] theorem setG_chunks (c : Ctx) (i : Nat) (v : W64) : (setG c i v).chunks = c.chunks := by
  by_cases h : i = 0 <;> by_cases h8 : i < 8 <;> simp [setG, h, h8]
@[simp] theorem setG_held (c : Ctx) (i : Nat) (v : W64) : (setG c i v).held = c.held := by
  by_cases h : i = 0 <;> by_cases h8 : i < 8 <;> simp [setG, h, h8]
@[simp] theorem setG_cfg (c : Ctx) (i : Nat) (v : W64) : (setG c i v).cfg = c.cfg := by
  by_cases h : i = 0 <;> by_cases h8 : i < 8 <;> simp [setG, h, h8]
@[simp] theorem setG_committing (c : Ctx) (i : Nat) (v : W64) : (setG c i v).committing = c.committing := by
  by_cases h : i = 0 <;> by_cases h8 : i < 8 <;> simp [setG, h, h8]
@[simp] theorem setG_lastEng (c : Ctx) (i : Nat) (v : W64) : (setG c i v).lastEng = c.lastEng := by
  by_cases h : i = 0 <;> by_cases h8 : i < 8 <;> simp [setG, h, h8]
@[simp] theorem setG_point (c : Ctx) (i : Nat) (v : W64) : (setG c i v).point = c.point := by
  by_cases h : i = 0 <;> by_cases h8 : i < 8 <;> simp [setG, h, h8]
@[simp] theorem setG_lastIssue (c : Ctx) (i : Nat) (v : W64) : (setG c i v).lastIssue = c.lastIssue := by
  by_cases h : i = 0 <;> by_cases h8 : i < 8 <;> simp [setG, h, h8]
@[simp] theorem setG_idleFor (c : Ctx) (i : Nat) (v : W64) : (setG c i v).idleFor = c.idleFor := by
  by_cases h : i = 0 <;> by_cases h8 : i < 8 <;> simp [setG, h, h8]
@[simp] theorem setG_reserved (c : Ctx) (i : Nat) (v : W64) : (setG c i v).reserved = c.reserved := by
  by_cases h : i = 0 <;> by_cases h8 : i < 8 <;> simp [setG, h, h8]
@[simp] theorem setG_walked (c : Ctx) (i : Nat) (v : W64) : (setG c i v).walked = c.walked := by
  by_cases h : i = 0 <;> by_cases h8 : i < 8 <;> simp [setG, h, h8]
@[simp] theorem setG_refill (c : Ctx) (i : Nat) (v : W64) : (setG c i v).refill = c.refill := by
  by_cases h : i = 0 <;> by_cases h8 : i < 8 <;> simp [setG, h, h8]
@[simp] theorem setP_task (c : Ctx) (n : Nat) (v : BitVec 16) : (setP c n v).task = c.task := by unfold setP; split <;> rfl
@[simp] theorem setP_ir (c : Ctx) (n : Nat) (v : BitVec 16) : (setP c n v).ir = c.ir := by unfold setP; split <;> rfl
@[simp] theorem setP_starting (c : Ctx) (n : Nat) (v : BitVec 16) : (setP c n v).starting = c.starting := by unfold setP; split <;> rfl
@[simp] theorem setP_wait (c : Ctx) (n : Nat) (v : BitVec 16) : (setP c n v).wait = c.wait := by unfold setP; split <;> rfl
@[simp] theorem setP_got (c : Ctx) (n : Nat) (v : BitVec 16) : (setP c n v).got = c.got := by unfold setP; split <;> rfl
@[simp] theorem setP_pc (c : Ctx) (n : Nat) (v : BitVec 16) : (setP c n v).pc = c.pc := by unfold setP; split <;> rfl
@[simp] theorem setP_g (c : Ctx) (n : Nat) (v : BitVec 16) : (setP c n v).g = c.g := by unfold setP; split <;> rfl
@[simp] theorem setP_phys (c : Ctx) (n : Nat) (v : BitVec 16) : (setP c n v).phys = c.phys := by unfold setP; split <;> rfl
@[simp] theorem setP_v (c : Ctx) (n : Nat) (v : BitVec 16) : (setP c n v).v = c.v := by unfold setP; split <;> rfl
@[simp] theorem setP_k (c : Ctx) (n : Nat) (v : BitVec 16) : (setP c n v).k = c.k := by unfold setP; split <;> rfl
@[simp] theorem setP_lc (c : Ctx) (n : Nat) (v : BitVec 16) : (setP c n v).lc = c.lc := by unfold setP; split <;> rfl
@[simp] theorem setP_fb (c : Ctx) (n : Nat) (v : BitVec 16) : (setP c n v).fb = c.fb := by unfold setP; split <;> rfl
@[simp] theorem setP_bsp (c : Ctx) (n : Nat) (v : BitVec 16) : (setP c n v).bsp = c.bsp := by unfold setP; split <;> rfl
@[simp] theorem setP_bsl (c : Ctx) (n : Nat) (v : BitVec 16) : (setP c n v).bsl = c.bsl := by unfold setP; split <;> rfl
@[simp] theorem setP_size (c : Ctx) (n : Nat) (v : BitVec 16) : (setP c n v).size = c.size := by unfold setP; split <;> rfl
@[simp] theorem setP_rlo (c : Ctx) (n : Nat) (v : BitVec 16) : (setP c n v).rlo = c.rlo := by unfold setP; split <;> rfl
@[simp] theorem setP_mode (c : Ctx) (n : Nat) (v : BitVec 16) : (setP c n v).mode = c.mode := by unfold setP; split <;> rfl
@[simp] theorem setP_pmode (c : Ctx) (n : Nat) (v : BitVec 16) : (setP c n v).pmode = c.pmode := by unfold setP; split <;> rfl
@[simp] theorem setP_cause (c : Ctx) (n : Nat) (v : BitVec 16) : (setP c n v).cause = c.cause := by unfold setP; split <;> rfl
@[simp] theorem setP_epc (c : Ctx) (n : Nat) (v : BitVec 16) : (setP c n v).epc = c.epc := by unfold setP; split <;> rfl
@[simp] theorem setP_fault (c : Ctx) (n : Nat) (v : BitVec 16) : (setP c n v).fault = c.fault := by unfold setP; split <;> rfl
@[simp] theorem setP_ports (c : Ctx) (n : Nat) (v : BitVec 16) : (setP c n v).ports = c.ports := by unfold setP; split <;> rfl
@[simp] theorem setP_ev (c : Ctx) (n : Nat) (v : BitVec 16) : (setP c n v).ev = c.ev := by unfold setP; split <;> rfl
@[simp] theorem setP_group (c : Ctx) (n : Nat) (v : BitVec 16) : (setP c n v).group = c.group := by unfold setP; split <;> rfl
@[simp] theorem setP_posted (c : Ctx) (n : Nat) (v : BitVec 16) : (setP c n v).posted = c.posted := by unfold setP; split <;> rfl
@[simp] theorem setP_trapNext (c : Ctx) (n : Nat) (v : BitVec 16) : (setP c n v).trapNext = c.trapNext := by unfold setP; split <;> rfl
@[simp] theorem setP_sb (c : Ctx) (n : Nat) (v : BitVec 16) : (setP c n v).sb = c.sb := by unfold setP; split <;> rfl
@[simp] theorem setP_journal (c : Ctx) (n : Nat) (v : BitVec 16) : (setP c n v).journal = c.journal := by unfold setP; split <;> rfl
@[simp] theorem setP_chunks (c : Ctx) (n : Nat) (v : BitVec 16) : (setP c n v).chunks = c.chunks := by unfold setP; split <;> rfl
@[simp] theorem setP_held (c : Ctx) (n : Nat) (v : BitVec 16) : (setP c n v).held = c.held := by unfold setP; split <;> rfl
@[simp] theorem setP_cfg (c : Ctx) (n : Nat) (v : BitVec 16) : (setP c n v).cfg = c.cfg := by unfold setP; split <;> rfl
@[simp] theorem setP_committing (c : Ctx) (n : Nat) (v : BitVec 16) : (setP c n v).committing = c.committing := by unfold setP; split <;> rfl
@[simp] theorem setP_lastEng (c : Ctx) (n : Nat) (v : BitVec 16) : (setP c n v).lastEng = c.lastEng := by unfold setP; split <;> rfl
@[simp] theorem setP_point (c : Ctx) (n : Nat) (v : BitVec 16) : (setP c n v).point = c.point := by unfold setP; split <;> rfl
@[simp] theorem setP_lastIssue (c : Ctx) (n : Nat) (v : BitVec 16) : (setP c n v).lastIssue = c.lastIssue := by unfold setP; split <;> rfl
@[simp] theorem setP_idleFor (c : Ctx) (n : Nat) (v : BitVec 16) : (setP c n v).idleFor = c.idleFor := by unfold setP; split <;> rfl
@[simp] theorem setP_reserved (c : Ctx) (n : Nat) (v : BitVec 16) : (setP c n v).reserved = c.reserved := by unfold setP; split <;> rfl
@[simp] theorem setP_walked (c : Ctx) (n : Nat) (v : BitVec 16) : (setP c n v).walked = c.walked := by unfold setP; split <;> rfl
@[simp] theorem setP_refill (c : Ctx) (n : Nat) (v : BitVec 16) : (setP c n v).refill = c.refill := by unfold setP; split <;> rfl

/-! ## retire: of the current context, the pc, the wait, and what ports popped -/

@[simp] theorem retire_cx_task (s : State) (a : W64) : (retire s a).cx.task = s.cx.task := rfl
@[simp] theorem retire_cx_ir (s : State) (a : W64) : (retire s a).cx.ir = s.cx.ir := rfl
@[simp] theorem retire_cx_starting (s : State) (a : W64) : (retire s a).cx.starting = s.cx.starting := rfl
@[simp] theorem retire_cx_g (s : State) (a : W64) : (retire s a).cx.g = s.cx.g := rfl
@[simp] theorem retire_cx_phys (s : State) (a : W64) : (retire s a).cx.phys = s.cx.phys := rfl
@[simp] theorem retire_cx_v (s : State) (a : W64) : (retire s a).cx.v = s.cx.v := rfl
@[simp] theorem retire_cx_p (s : State) (a : W64) : (retire s a).cx.p = s.cx.p := rfl
@[simp] theorem retire_cx_k (s : State) (a : W64) : (retire s a).cx.k = s.cx.k := rfl
@[simp] theorem retire_cx_lc (s : State) (a : W64) : (retire s a).cx.lc = s.cx.lc := rfl
@[simp] theorem retire_cx_fb (s : State) (a : W64) : (retire s a).cx.fb = s.cx.fb := rfl
@[simp] theorem retire_cx_bsp (s : State) (a : W64) : (retire s a).cx.bsp = s.cx.bsp := rfl
@[simp] theorem retire_cx_bsl (s : State) (a : W64) : (retire s a).cx.bsl = s.cx.bsl := rfl
@[simp] theorem retire_cx_size (s : State) (a : W64) : (retire s a).cx.size = s.cx.size := rfl
@[simp] theorem retire_cx_rlo (s : State) (a : W64) : (retire s a).cx.rlo = s.cx.rlo := rfl
@[simp] theorem retire_cx_mode (s : State) (a : W64) : (retire s a).cx.mode = s.cx.mode := rfl
@[simp] theorem retire_cx_pmode (s : State) (a : W64) : (retire s a).cx.pmode = s.cx.pmode := rfl
@[simp] theorem retire_cx_cause (s : State) (a : W64) : (retire s a).cx.cause = s.cx.cause := rfl
@[simp] theorem retire_cx_epc (s : State) (a : W64) : (retire s a).cx.epc = s.cx.epc := rfl
@[simp] theorem retire_cx_fault (s : State) (a : W64) : (retire s a).cx.fault = s.cx.fault := rfl
@[simp] theorem retire_cx_ev (s : State) (a : W64) : (retire s a).cx.ev = s.cx.ev := rfl
@[simp] theorem retire_cx_group (s : State) (a : W64) : (retire s a).cx.group = s.cx.group := rfl
@[simp] theorem retire_cx_posted (s : State) (a : W64) : (retire s a).cx.posted = s.cx.posted := rfl
@[simp] theorem retire_cx_trapNext (s : State) (a : W64) : (retire s a).cx.trapNext = s.cx.trapNext := rfl
@[simp] theorem retire_cx_sb (s : State) (a : W64) : (retire s a).cx.sb = s.cx.sb := rfl
@[simp] theorem retire_cx_journal (s : State) (a : W64) : (retire s a).cx.journal = s.cx.journal := rfl
@[simp] theorem retire_cx_chunks (s : State) (a : W64) : (retire s a).cx.chunks = s.cx.chunks := rfl
@[simp] theorem retire_cx_held (s : State) (a : W64) : (retire s a).cx.held = s.cx.held := rfl
@[simp] theorem retire_cx_cfg (s : State) (a : W64) : (retire s a).cx.cfg = s.cx.cfg := rfl
@[simp] theorem retire_cx_committing (s : State) (a : W64) : (retire s a).cx.committing = s.cx.committing := rfl
@[simp] theorem retire_cx_lastEng (s : State) (a : W64) : (retire s a).cx.lastEng = s.cx.lastEng := rfl
@[simp] theorem retire_cx_lastIssue (s : State) (a : W64) : (retire s a).cx.lastIssue = s.cx.lastIssue := rfl
@[simp] theorem retire_cx_idleFor (s : State) (a : W64) : (retire s a).cx.idleFor = s.cx.idleFor := rfl
@[simp] theorem retire_cx_reserved (s : State) (a : W64) : (retire s a).cx.reserved = s.cx.reserved := rfl
@[simp] theorem retire_cx_pc (s : State) (a : W64) : (retire s a).cx.pc = pcOf a := rfl
@[simp] theorem retire_cx_wait (s : State) (a : W64) : (retire s a).cx.wait = none := rfl
@[simp] theorem retire_cx_got (s : State) (a : W64) : (retire s a).cx.got = none := rfl
@[simp] theorem retire_cx_refill (s : State) (a : W64) : (retire s a).cx.refill = s.cx.refill := rfl

end Sys2Proof.Machine
end

