-- ==== Sys2Proof/Laws/Memory.lean ====
section
/-! SUPPORT. Memory: reading after writing, and the canonical form through every operation that writes. -/

namespace Sys2Proof.Machine
open Sys2Proof

theorem rdByte_wrByte (s : State) (l j : Nat) (b : Byte) : rdByte (wrByte s l b) j = if j = l then b else rdByte s j := by
  simp [rdByte, wrByte, getD_setD]

/-- Bytes written lie where they were written; every other byte is as before. -/
theorem rdByte_wrBytes (bs : List Byte) (s : State) (l j : Nat) :
    rdByte (wrBytes s l bs) j = if l ≤ j ∧ j < l + bs.length then bs.getD (j - l) 0 else rdByte s j := by
  induction bs generalizing s l with
  | nil =>
    have h : ¬(l ≤ j ∧ j < l + ([] : List Byte).length) := by simp
    rw [if_neg h]; rfl
  | cons b r ih =>
    rw [wrBytes, ih, rdByte_wrByte]
    by_cases h : j = l
    · subst h
      have h2 : ¬(j + 1 ≤ j ∧ j < j + 1 + r.length) := by omega
      simp [h2]
    · by_cases h2 : l + 1 ≤ j ∧ j < l + 1 + r.length
      · have h3 : l ≤ j ∧ j < l + (b :: r).length := by simp; omega
        have h4 : j - l = (j - (l + 1)) + 1 := by omega
        simp only [h2, h3, h4, and_self, if_true, List.getD_cons_succ]
      · have h3 : ¬(l ≤ j ∧ j < l + (b :: r).length) := by simp; omega
        simp only [h2, h3, h, if_false]

theorem memWf_wrByte (s : State) (l : Nat) (b : Byte) (h : memWf s = true) : memWf (wrByte s l b) = true :=
  canonical_setD s.mem 0 l b h

theorem memWf_wrBytes (bs : List Byte) (s : State) (l : Nat) (h : memWf s = true) : memWf (wrBytes s l bs) = true := by
  induction bs generalizing s l with
  | nil => exact h
  | cons b r ih => exact ih _ _ (memWf_wrByte s l b h)

/-- A step that leaves memory alone keeps its form. -/
theorem memWf_of_mem {s t : State} (e : t.mem = s.mem) (h : memWf s = true) : memWf t = true := by
  unfold memWf at *; rw [e]; exact h

/-- A fold keeps what each of its steps keeps. -/
theorem foldl_keeps {α : Type} (p : State → Prop) (f : State → α → State) (hf : ∀ s x, p s → p (f s x)) (l : List α) (s : State) (h : p s) :
    p (l.foldl f s) := by
  induction l generalizing s with
  | nil => exact h
  | cons x r ih => exact ih _ (hf s x h)

@[simp] theorem unpoison_mem (s : State) (l n : Nat) : (unpoison s l n).mem = s.mem := by unfold unpoison; split <;> rfl

@[simp] theorem disown_mem (s : State) (l n : Nat) : (disown s l n).mem = s.mem := by unfold disown; split <;> rfl

@[simp] theorem inject_mem (s : State) (p : Packet) (g : Bool) : (inject s p g).mem = s.mem := rfl

@[simp] theorem peerSend_mem (s : State) (l n k d e : Nat) : (peerSend s l n k d e).mem = s.mem := rfl

@[simp] theorem mirrorSend_mem (s : State) (l : Nat) (bs : List Byte) : (mirrorSend s l bs).mem = s.mem := by
  unfold mirrorSend
  dsimp only
  split
  · rfl
  · split <;> simp

@[simp] theorem updCtx_mem (s : State) (c : Nat) (f : Ctx → Ctx) : (updCtx s c f).mem = s.mem := by
  unfold updCtx setCtx; split <;> rfl

@[simp] theorem postedDone_mem (s : State) (c : Option Nat) (l : Nat) : (postedDone s c l).mem = s.mem := by
  cases c <;> simp [postedDone]

theorem memWf_recall (s : State) (line : Nat) (h : memWf s = true) : memWf (recallLine s line) = true := by
  unfold recallLine
  refine foldl_keeps (fun s => memWf s = true) _ ?_ _ s h
  intro s p hs
  split
  · exact hs
  · exact memWf_of_mem (updCluster_mem _ _ _) (memWf_wrBytes _ _ _ hs)

@[simp] theorem giveUp_mem (s : State) (l : Nat) : (giveUp s l).mem = s.mem := by unfold giveUp; split <;> rfl

theorem memWf_takeBack (s : State) (line : Nat) (h : memWf s = true) : memWf (takeBack s line) = true :=
  memWf_of_mem (giveUp_mem _ _) (memWf_recall s line h)

theorem memWf_settleWord (s : State) (l : Nat) (h : memWf s = true) : memWf (settleWord s l) = true := by
  unfold settleWord
  split
  · exact h
  · dsimp only
    split
    · exact h
    · refine memWf_of_mem (updNode_mem _ _ _) ?_
      refine foldl_keeps (fun s => memWf s = true) _ ?_ _ s h
      intro s e hs
      split
      · exact memWf_of_mem (postedDone_mem _ _ _) (memWf_wrBytes _ _ _ hs)
      · exact hs

theorem memWf_settle (s : State) (l n : Nat) (h : memWf s = true) : memWf (settle s l n) = true := by
  unfold settle
  split
  · exact h
  · exact foldl_keeps (fun s => memWf s = true) _ (fun s w hs => memWf_settleWord s _ hs) _ s h

/-- A write at a home keeps the canonical form. -/
theorem memWf_homeWrite (s : State) (l : Nat) (bs : List Byte) (h : memWf s = true) : memWf (homeWrite s l bs) = true := by
  unfold homeWrite
  dsimp only
  refine memWf_of_mem (disown_mem _ _ _) (memWf_of_mem (unpoison_mem _ _ _) (memWf_wrBytes _ _ _ (memWf_takeBack _ _ (memWf_settle _ _ _ ?_))))
  split
  · exact memWf_of_mem (peerSend_mem _ _ _ _ _ _) h
  · exact memWf_of_mem (mirrorSend_mem _ _ _) h

/-- An atomic at an RMW node keeps the canonical form. -/
theorem memWf_rmwAt (s : State) (op : AtomOp) (l n : Nat) (v e : W64) (h : memWf s = true) : memWf (rmwAt s op l n v e).2 = true := by
  unfold rmwAt
  dsimp only
  split
  · exact memWf_wrBytes _ _ _ (memWf_of_mem (peerSend_mem _ _ _ _ _ _) h)
  · exact memWf_of_mem (disown_mem _ _ _) (memWf_of_mem (unpoison_mem _ _ _) (memWf_wrBytes _ _ _
      (memWf_of_mem (mirrorSend_mem _ _ _) (memWf_recall _ _ (memWf_settleWord _ _ h)))))

/-- A line that an atomic engine takes up, and an atomic there, keep the canonical form. -/
theorem memWf_aeFill (s : State) (c l : Nat) (h : memWf s = true) : memWf (aeFill s c l) = true := by
  unfold aeFill
  split
  · exact h
  · dsimp only
    refine memWf_of_mem (updCluster_mem _ _ _) ?_
    split
    · exact memWf_takeBack _ _ h
    · exact memWf_wrBytes _ _ _ (memWf_takeBack _ _ h)

theorem memWf_aeAt (s : State) (c : Nat) (op : AtomOp) (l n : Nat) (v e : W64) (h : memWf s = true) : memWf (aeAt s c op l n v e).2 = true := by
  unfold aeAt
  dsimp only
  split
  · exact memWf_aeFill _ _ _ h
  · exact memWf_of_mem (updCluster_mem _ _ _) (memWf_of_mem (mirrorSend_mem _ _ _) (memWf_aeFill _ _ _ h))

end Sys2Proof.Machine
end

