-- ==== Sys2Proof/Laws/Run.lean ====
section
/-! SUPPORT. Running one instruction: the frame of it once, actions in sequence, and operands that are registers. -/

namespace Sys2Proof.Machine
open Sys2Proof

/-! ## Actions in sequence -/

/-- An action that succeeds hands its result on. -/
theorem act_bind {α β : Type} {x : Act α} {f : α → Act β} {s t : State} {a : α} (h : x s = .ok a t) : (x >>= f) s = f a t := by
  show EStateM.bind x f s = f a t
  unfold EStateM.bind; rw [h]

theorem act_pure {α : Type} (a : α) (s : State) : (pure a : Act α) s = .ok a s := rfl
theorem act_view {α β : Type} (g : State → α) (f : α → Act β) (s : State) : (view g >>= f) s = f (g s) s := rfl
theorem act_upd {β : Type} (g : State → State) (f : Unit → Act β) (s : State) : (upd g >>= f) s = f () (g s) := rfl

/-! ## The frame of an instruction -/

/-- With power on and a task, an instruction that is well formed and executes ends as its body ends. -/
theorem runInsn_on {s : State} (h : Running s) (len : Nat) (body : Act Flow) :
    runInsn true true len body s = .next (finish s len (body s)) := by
  obtain ⟨hp, ht⟩ := h
  have hn : s.cx.task.isNone = false := by cases e : s.cx.task <;> simp_all
  simp [runInsn, show s.host.off = false from hp, hn]

/-- Predicated off, it only moves the pc. -/
theorem runInsn_off {s : State} (h : Running s) (ok : Bool) (len : Nat) (body : Act Flow) :
    runInsn ok false len body s = .next (retire s (s.cx.pc + BitVec.ofNat 64 len)) := by
  obtain ⟨hp, ht⟩ := h
  have hn : s.cx.task.isNone = false := by cases e : s.cx.task <;> simp_all
  simp [runInsn, show s.host.off = false from hp, hn]

/-- An ill-formed use that executes is ILLEGAL. -/
theorem runInsn_bad {s : State} (h : Running s) (len : Nat) (body : Act Flow) :
    runInsn false true len body s = .next (takeTrap s { f := faultAt cILLEGAL 0, pc := s.cx.pc, ir := s.cx.ir }) := by
  obtain ⟨hp, ht⟩ := h
  have hn : s.cx.task.isNone = false := by cases e : s.cx.task <;> simp_all
  simp [runInsn, show s.host.off = false from hp, hn]

/-- A step of another agent happens whenever the power is on. -/
theorem runEvent_on {s : State} (h : Powered s) (f : State → State) : runEvent f s = .next (f s) := by
  simp [runEvent, show s.host.off = false from h]

theorem runEvent_moves {s : State} (h : Powered s) (f : State → State) : ∃ t, runEvent f s = .next t := ⟨_, runEvent_on h f⟩

/-- With power on and a task, an instruction is never refused. -/
theorem runInsn_moves {s : State} (h : Running s) (ok on : Bool) (len : Nat) (body : Act Flow) : ∃ t, runInsn ok on len body s = .next t := by
  cases on with
  | false => exact ⟨_, runInsn_off h ok len body⟩
  | true =>
    cases ok with
    | false => exact ⟨_, runInsn_bad h len body⟩
    | true => exact ⟨_, runInsn_on h len body⟩

theorem finish_next {s t : State} (len : Nat) : finish s len (.ok .next t) = retire t (s.cx.pc + BitVec.ofNat 64 len) := rfl
theorem finish_jump {s t : State} (len : Nat) (a : W64) : finish s len (.ok (.jump a) t) = retire t a := rfl
theorem finish_after {s t : State} (len : Nat) (f : State → State) :
    finish s len (.ok (.after f) t) = f (retire t (s.cx.pc + BitVec.ofNat 64 len)) := rfl
theorem finish_gone {s t : State} (len : Nat) : finish s len (.ok .gone t) = t := rfl

/-! ## Operands that are registers (R224, R225, R242) -/

theorem rdG_reg {s : State} {x : BitVec 6} (h : IsReg s x) : rdG x s = .ok (reg s x) s := by
  obtain ⟨h1, h2⟩ := h
  simp [rdG, bind, EStateM.bind, view, h1, h2, pure, EStateM.pure, reg]

theorem checkG_reg {s : State} {x : BitVec 6} (h : IsReg s x) : checkG x s = .ok () s := by
  obtain ⟨h1, h2⟩ := h
  simp [checkG, bind, EStateM.bind, view, h1, h2, pure, EStateM.pure]

theorem wrG_reg {s : State} {x : BitVec 6} (h : IsReg s x) (v : W64) : wrG x v s = .ok () { s with cx := regSet s x v } := by
  obtain ⟨h1, h2⟩ := h
  simp [wrG, upd, h1, regSet]

theorem rdV_vec {s : State} {x : BitVec 6} (h : IsVec x) : rdV x s = .ok (getD s.cx.v 0 x.toNat) s := by
  obtain ⟨h1, h2⟩ := h
  simp [rdV, bind, EStateM.bind, view, h2, pure, EStateM.pure]

theorem checkV_vec {s : State} {x : BitVec 6} (h : IsVec x) : checkV x s = .ok () s := by
  obtain ⟨h1, h2⟩ := h
  simp [checkV, h2, pure, EStateM.pure]

theorem wrV_vec {s : State} {x : BitVec 6} (h : IsVec x) (v : Vec) :
    wrV x v s = .ok () { s with cx := { s.cx with v := setD s.cx.v 0 x.toNat v } } := by
  obtain ⟨h1, h2⟩ := h
  simp [wrV, upd, h2]

/-- The register that was written reads what was written; g0 stays 0. -/
theorem gReg_setG_self (c : Ctx) (i : Nat) (v : W64) : gReg (setG c i v) i = if i = 0 then 0 else v := by
  by_cases h : i = 0
  · simp [gReg, h]
  · by_cases h8 : i < 8
    · simp [gReg, setG, h, h8, getD_setD]
    · simp [gReg, setG, h, h8, getD_setD, physOf]

/-- Every other register of the frame keeps its value. -/
theorem gReg_setG_ne (c : Ctx) {i j : Nat} (v : W64) (h : j ≠ i) (hi : i < 48) (hj : j < 48) : gReg (setG c i v) j = gReg c j := by
  by_cases h0 : i = 0
  · simp [setG, h0]
  · by_cases hj0 : j = 0
    · simp [gReg, hj0]
    · by_cases hi8 : i < 8 <;> by_cases hj8 : j < 8
      · simp [gReg, setG, h0, hj0, hi8, hj8, getD_setD, h]
      · simp [gReg, setG, h0, hj0, hi8, hj8, physOf]
      · simp [gReg, setG, h0, hj0, hi8, hj8]
      · have : ¬((c.fb.toNat + j - 8) % 256 = (c.fb.toNat + i - 8) % 256) := by omega
        simp [gReg, setG, h0, hj0, hi8, hj8, getD_setD, physOf, this]

end Sys2Proof.Machine
end

