-- ==== Sys2Proof/Laws/Lanes.lean ====
section
/-! SUPPORT. Lanes and bits: a vector and a predicate built lane by lane are read back, and the model's bit test is Nat's. -/

namespace Sys2Proof.Machine

theorem bit_eq_testBit (v n : Nat) : bit v n = v.testBit n := by
  have h := Nat.mod_two_eq_zero_or_one (v / 2 ^ n)
  rcases h with h | h <;> simp [bit, Nat.testBit_eq_decide_div_mod_eq, h]

/-- Folding lanes of 32 bits from k on: below 2^(32 (k + n)), and each lane is where it was put. -/
theorem lanes_fold (f : Nat → W32) : ∀ (n k acc : Nat), acc < 2 ^ (32 * k) →
    (range' k n).foldl (fun m i => m + (f i).toNat * 2 ^ (32 * i)) acc < 2 ^ (32 * (k + n)) ∧
    (∀ i, i < k → (range' k n).foldl (fun m i => m + (f i).toNat * 2 ^ (32 * i)) acc / 2 ^ (32 * i) % 2 ^ 32 = acc / 2 ^ (32 * i) % 2 ^ 32) ∧
    (∀ i, k ≤ i → i < k + n →
      (range' k n).foldl (fun m i => m + (f i).toNat * 2 ^ (32 * i)) acc / 2 ^ (32 * i) % 2 ^ 32 = (f i).toNat)
  | 0, k, acc, h => ⟨by simpa [range'] using h, fun _ _ => rfl, fun i h1 h2 => by omega⟩
  | n + 1, k, acc, h => by
    have hf := (f k).isLt
    have hacc : acc + (f k).toNat * 2 ^ (32 * k) < 2 ^ (32 * (k + 1)) := by
      rw [show 32 * (k + 1) = 32 * k + 32 by omega, Nat.pow_add]
      have := Nat.mul_le_mul_right (2 ^ (32 * k)) (Nat.le_pred_of_lt hf)
      have e : (2 ^ 32 - 1) * 2 ^ (32 * k) + 2 ^ (32 * k) = 2 ^ (32 * k) * 2 ^ 32 := by omega
      have : (f k).toNat * 2 ^ (32 * k) ≤ (2 ^ 32 - 1) * 2 ^ (32 * k) := this
      omega
    have ih := lanes_fold f n (k + 1) _ hacc
    rw [show k + 1 + n = k + (n + 1) by omega] at ih
    refine ⟨ih.1, ?_, ?_⟩
    · intro i hi
      rw [range', List.foldl_cons, ih.2.1 i (by omega)]
      rw [show 32 * k = 32 * i + 32 + (32 * k - 32 * i - 32) by omega, Nat.pow_add, Nat.pow_add]
      rw [show (f k).toNat * (2 ^ (32 * i) * 2 ^ 32 * 2 ^ (32 * k - 32 * i - 32)) =
        2 ^ (32 * i) * (2 ^ 32 * ((f k).toNat * 2 ^ (32 * k - 32 * i - 32))) by simp only [Nat.mul_assoc, Nat.mul_left_comm]]
      rw [Nat.add_mul_div_left _ _ (Nat.two_pow_pos _), Nat.add_mul_mod_self_left]
    · intro i h1 h2
      rcases Nat.eq_or_lt_of_le h1 with rfl | h3
      · rw [range', List.foldl_cons, ih.2.1 k (by omega), Nat.mul_comm (f k).toNat,
          Nat.add_mul_div_left _ _ (Nat.two_pow_pos _), Nat.div_eq_of_lt h, Nat.zero_add, Nat.mod_eq_of_lt hf]
      · rw [range', List.foldl_cons, ih.2.2 i h3 (by omega)]

theorem lane_ofNat (x i n : Nat) (h : i < n) : ((BitVec.ofNat (32 * n) x).extractLsb' (32 * i) 32).toNat = x / 2 ^ (32 * i) % 2 ^ 32 := by
  simp only [BitVec.extractLsb'_toNat, BitVec.toNat_ofNat, Nat.shiftRight_eq_div_pow]
  rw [show 32 * n = 32 * i + 32 + (32 * n - 32 * i - 32) by omega, Nat.pow_add _ (32 * i + 32), Nat.pow_add, Nat.mul_assoc,
    Nat.mod_mul_right_div_self, Nat.mod_mod_of_dvd _ (Nat.dvd_mul_right _ _)]

@[simp] theorem lane_ofLanes (f : Nat → W32) (i : Nat) (h : i < 16) : lane (ofLanes f) i = f i :=
  BitVec.eq_of_toNat_eq ((lane_ofNat _ i 16 h).trans ((lanes_fold f 16 0 0 Nat.one_pos).2.2 i (Nat.zero_le i) (by omega)))

/-- Folding bits from k on. -/
theorem bits_fold (f : Nat → Bool) : ∀ (n k acc : Nat), acc < 2 ^ k →
    (range' k n).foldl (fun m i => if f i then m + 2 ^ i else m) acc < 2 ^ (k + n) ∧
    (∀ i, i < k → ((range' k n).foldl (fun m i => if f i then m + 2 ^ i else m) acc).testBit i = acc.testBit i) ∧
    (∀ i, k ≤ i → i < k + n → ((range' k n).foldl (fun m i => if f i then m + 2 ^ i else m) acc).testBit i = f i)
  | 0, k, acc, h => ⟨by simpa [range'] using h, fun _ _ => rfl, fun i h1 h2 => by omega⟩
  | n + 1, k, acc, h => by
    have hacc : (if f k then acc + 2 ^ k else acc) < 2 ^ (k + 1) := by
      rw [Nat.pow_succ]; split <;> omega
    have ih := bits_fold f n (k + 1) _ hacc
    rw [show k + 1 + n = k + (n + 1) by omega] at ih
    have hlow : ∀ i, i < k → (if f k then acc + 2 ^ k else acc).testBit i = acc.testBit i := by
      intro i hi
      split
      · rw [Nat.add_comm, Nat.testBit_two_pow_add_gt hi]
      · rfl
    have hk : (if f k then acc + 2 ^ k else acc).testBit k = f k := by
      split
      · rename_i hf
        rw [Nat.add_comm, Nat.testBit_two_pow_add_eq, Nat.testBit_lt_two_pow h, hf]; rfl
      · rename_i hf
        rw [Nat.testBit_lt_two_pow h]; simpa using hf
    refine ⟨ih.1, ?_, ?_⟩
    · intro i hi
      rw [range', List.foldl_cons, ih.2.1 i (by omega), hlow i hi]
    · intro i h1 h2
      rcases Nat.eq_or_lt_of_le h1 with rfl | h3
      · rw [range', List.foldl_cons, ih.2.1 k (by omega), hk]
      · rw [range', List.foldl_cons, ih.2.2 i h3 (by omega)]

@[simp] theorem getLsbD_ofBits (f : Nat → Bool) (i : Nat) (h : i < 16) : (ofBits f).getLsbD i = f i := by
  have hb := bits_fold f 16 0 0 (by simp)
  simp only [ofBits, BitVec.getLsbD_ofNat, h, decide_true, Bool.true_and]
  exact hb.2.2 i (by omega) (by omega)

theorem lane_merge (on : BitVec 16) (new old : Vec) (i : Nat) (h : i < 16) :
    lane (merge on new old) i = if on.getLsbD i then lane new i else lane old i := by
  rw [merge, lane_ofLanes _ _ h]

end Sys2Proof.Machine
end

