-- ==== Sys2Proof/Laws/Words.lean ====
section
/-! SUPPORT. Words and their fields: each format's fields are read back from a packed word, and a word is packed from its
fields; bytes of words; words with and without an X word. -/

namespace Sys2Proof

theorem r_op (op : BitVec 6) (d : BitVec 6) (a : BitVec 6) (b : BitVec 6) (p : BitVec 3) (fn : BitVec 5) :
    ((op ++ d ++ a ++ b ++ p ++ fn : BitVec (6+6+6+6+3+5)).extractLsb' 26 6) = op := by
  simp (disch := omega) only [BitVec.extractLsb'_append_eq_of_le]; simp

theorem r_d (op : BitVec 6) (d : BitVec 6) (a : BitVec 6) (b : BitVec 6) (p : BitVec 3) (fn : BitVec 5) :
    ((op ++ d ++ a ++ b ++ p ++ fn : BitVec (6+6+6+6+3+5)).extractLsb' 20 6) = d := by
  simp (disch := omega) only [BitVec.extractLsb'_append_eq_of_le, BitVec.extractLsb'_append_eq_of_add_le]; simp

theorem r_a (op : BitVec 6) (d : BitVec 6) (a : BitVec 6) (b : BitVec 6) (p : BitVec 3) (fn : BitVec 5) :
    ((op ++ d ++ a ++ b ++ p ++ fn : BitVec (6+6+6+6+3+5)).extractLsb' 14 6) = a := by
  simp (disch := omega) only [BitVec.extractLsb'_append_eq_of_le, BitVec.extractLsb'_append_eq_of_add_le]; simp

theorem r_b (op : BitVec 6) (d : BitVec 6) (a : BitVec 6) (b : BitVec 6) (p : BitVec 3) (fn : BitVec 5) :
    ((op ++ d ++ a ++ b ++ p ++ fn : BitVec (6+6+6+6+3+5)).extractLsb' 8 6) = b := by
  simp (disch := omega) only [BitVec.extractLsb'_append_eq_of_le, BitVec.extractLsb'_append_eq_of_add_le]; simp

theorem r_p (op : BitVec 6) (d : BitVec 6) (a : BitVec 6) (b : BitVec 6) (p : BitVec 3) (fn : BitVec 5) :
    ((op ++ d ++ a ++ b ++ p ++ fn : BitVec (6+6+6+6+3+5)).extractLsb' 5 3) = p := by
  simp (disch := omega) only [BitVec.extractLsb'_append_eq_of_le, BitVec.extractLsb'_append_eq_of_add_le]; simp

theorem r_fn (op : BitVec 6) (d : BitVec 6) (a : BitVec 6) (b : BitVec 6) (p : BitVec 3) (fn : BitVec 5) :
    ((op ++ d ++ a ++ b ++ p ++ fn : BitVec (6+6+6+6+3+5)).extractLsb' 0 5) = fn := by
  simp (disch := omega) only [BitVec.extractLsb'_append_eq_of_add_le]; simp

theorem r_word (w : W32) :
    (w.extractLsb' 26 6 ++ w.extractLsb' 20 6 ++ w.extractLsb' 14 6 ++ w.extractLsb' 8 6 ++ w.extractLsb' 5 3 ++ w.extractLsb' 0 5 : BitVec (6+6+6+6+3+5)) = w := by
  rw [BitVec.extractLsb'_append_extractLsb'_eq_extractLsb' (by omega)]
  rw [BitVec.extractLsb'_append_extractLsb'_eq_extractLsb' (by omega)]
  rw [BitVec.extractLsb'_append_extractLsb'_eq_extractLsb' (by omega)]
  rw [BitVec.extractLsb'_append_extractLsb'_eq_extractLsb' (by omega)]
  rw [BitVec.extractLsb'_append_extractLsb'_eq_extractLsb' (by omega)]
  simp

theorem i_op (op : BitVec 6) (d : BitVec 6) (a : BitVec 6) (imm : BitVec 14) :
    ((op ++ d ++ a ++ imm : BitVec (6+6+6+14)).extractLsb' 26 6) = op := by
  simp (disch := omega) only [BitVec.extractLsb'_append_eq_of_le]; simp

theorem i_d (op : BitVec 6) (d : BitVec 6) (a : BitVec 6) (imm : BitVec 14) :
    ((op ++ d ++ a ++ imm : BitVec (6+6+6+14)).extractLsb' 20 6) = d := by
  simp (disch := omega) only [BitVec.extractLsb'_append_eq_of_le, BitVec.extractLsb'_append_eq_of_add_le]; simp

theorem i_a (op : BitVec 6) (d : BitVec 6) (a : BitVec 6) (imm : BitVec 14) :
    ((op ++ d ++ a ++ imm : BitVec (6+6+6+14)).extractLsb' 14 6) = a := by
  simp (disch := omega) only [BitVec.extractLsb'_append_eq_of_le, BitVec.extractLsb'_append_eq_of_add_le]; simp

theorem i_imm (op : BitVec 6) (d : BitVec 6) (a : BitVec 6) (imm : BitVec 14) :
    ((op ++ d ++ a ++ imm : BitVec (6+6+6+14)).extractLsb' 0 14) = imm := by
  simp (disch := omega) only [BitVec.extractLsb'_append_eq_of_add_le]; simp

theorem i_word (w : W32) :
    (w.extractLsb' 26 6 ++ w.extractLsb' 20 6 ++ w.extractLsb' 14 6 ++ w.extractLsb' 0 14 : BitVec (6+6+6+14)) = w := by
  rw [BitVec.extractLsb'_append_extractLsb'_eq_extractLsb' (by omega)]
  rw [BitVec.extractLsb'_append_extractLsb'_eq_extractLsb' (by omega)]
  rw [BitVec.extractLsb'_append_extractLsb'_eq_extractLsb' (by omega)]
  simp

theorem m_op (op : BitVec 6) (t : BitVec 6) (a : BitVec 6) (off : BitVec 11) (p : BitVec 3) :
    ((op ++ t ++ a ++ off ++ p : BitVec (6+6+6+11+3)).extractLsb' 26 6) = op := by
  simp (disch := omega) only [BitVec.extractLsb'_append_eq_of_le]; simp

theorem m_t (op : BitVec 6) (t : BitVec 6) (a : BitVec 6) (off : BitVec 11) (p : BitVec 3) :
    ((op ++ t ++ a ++ off ++ p : BitVec (6+6+6+11+3)).extractLsb' 20 6) = t := by
  simp (disch := omega) only [BitVec.extractLsb'_append_eq_of_le, BitVec.extractLsb'_append_eq_of_add_le]; simp

theorem m_a (op : BitVec 6) (t : BitVec 6) (a : BitVec 6) (off : BitVec 11) (p : BitVec 3) :
    ((op ++ t ++ a ++ off ++ p : BitVec (6+6+6+11+3)).extractLsb' 14 6) = a := by
  simp (disch := omega) only [BitVec.extractLsb'_append_eq_of_le, BitVec.extractLsb'_append_eq_of_add_le]; simp

theorem m_off (op : BitVec 6) (t : BitVec 6) (a : BitVec 6) (off : BitVec 11) (p : BitVec 3) :
    ((op ++ t ++ a ++ off ++ p : BitVec (6+6+6+11+3)).extractLsb' 3 11) = off := by
  simp (disch := omega) only [BitVec.extractLsb'_append_eq_of_le, BitVec.extractLsb'_append_eq_of_add_le]; simp

theorem m_p (op : BitVec 6) (t : BitVec 6) (a : BitVec 6) (off : BitVec 11) (p : BitVec 3) :
    ((op ++ t ++ a ++ off ++ p : BitVec (6+6+6+11+3)).extractLsb' 0 3) = p := by
  simp (disch := omega) only [BitVec.extractLsb'_append_eq_of_add_le]; simp

theorem m_word (w : W32) :
    (w.extractLsb' 26 6 ++ w.extractLsb' 20 6 ++ w.extractLsb' 14 6 ++ w.extractLsb' 3 11 ++ w.extractLsb' 0 3 : BitVec (6+6+6+11+3)) = w := by
  rw [BitVec.extractLsb'_append_extractLsb'_eq_extractLsb' (by omega)]
  rw [BitVec.extractLsb'_append_extractLsb'_eq_extractLsb' (by omega)]
  rw [BitVec.extractLsb'_append_extractLsb'_eq_extractLsb' (by omega)]
  rw [BitVec.extractLsb'_append_extractLsb'_eq_extractLsb' (by omega)]
  simp

theorem bf_op (op : BitVec 6) (d : BitVec 6) (a : BitVec 6) (s : BitVec 2) (len : BitVec 6) (pos : BitVec 6) :
    ((op ++ d ++ a ++ s ++ len ++ pos : BitVec (6+6+6+2+6+6)).extractLsb' 26 6) = op := by
  simp (disch := omega) only [BitVec.extractLsb'_append_eq_of_le]; simp

theorem bf_d (op : BitVec 6) (d : BitVec 6) (a : BitVec 6) (s : BitVec 2) (len : BitVec 6) (pos : BitVec 6) :
    ((op ++ d ++ a ++ s ++ len ++ pos : BitVec (6+6+6+2+6+6)).extractLsb' 20 6) = d := by
  simp (disch := omega) only [BitVec.extractLsb'_append_eq_of_le, BitVec.extractLsb'_append_eq_of_add_le]; simp

theorem bf_a (op : BitVec 6) (d : BitVec 6) (a : BitVec 6) (s : BitVec 2) (len : BitVec 6) (pos : BitVec 6) :
    ((op ++ d ++ a ++ s ++ len ++ pos : BitVec (6+6+6+2+6+6)).extractLsb' 14 6) = a := by
  simp (disch := omega) only [BitVec.extractLsb'_append_eq_of_le, BitVec.extractLsb'_append_eq_of_add_le]; simp

theorem bf_s (op : BitVec 6) (d : BitVec 6) (a : BitVec 6) (s : BitVec 2) (len : BitVec 6) (pos : BitVec 6) :
    ((op ++ d ++ a ++ s ++ len ++ pos : BitVec (6+6+6+2+6+6)).extractLsb' 12 2) = s := by
  simp (disch := omega) only [BitVec.extractLsb'_append_eq_of_le, BitVec.extractLsb'_append_eq_of_add_le]; simp

theorem bf_len (op : BitVec 6) (d : BitVec 6) (a : BitVec 6) (s : BitVec 2) (len : BitVec 6) (pos : BitVec 6) :
    ((op ++ d ++ a ++ s ++ len ++ pos : BitVec (6+6+6+2+6+6)).extractLsb' 6 6) = len := by
  simp (disch := omega) only [BitVec.extractLsb'_append_eq_of_le, BitVec.extractLsb'_append_eq_of_add_le]; simp

theorem bf_pos (op : BitVec 6) (d : BitVec 6) (a : BitVec 6) (s : BitVec 2) (len : BitVec 6) (pos : BitVec 6) :
    ((op ++ d ++ a ++ s ++ len ++ pos : BitVec (6+6+6+2+6+6)).extractLsb' 0 6) = pos := by
  simp (disch := omega) only [BitVec.extractLsb'_append_eq_of_add_le]; simp

theorem bf_word (w : W32) :
    (w.extractLsb' 26 6 ++ w.extractLsb' 20 6 ++ w.extractLsb' 14 6 ++ w.extractLsb' 12 2 ++ w.extractLsb' 6 6 ++ w.extractLsb' 0 6 : BitVec (6+6+6+2+6+6)) = w := by
  rw [BitVec.extractLsb'_append_extractLsb'_eq_extractLsb' (by omega)]
  rw [BitVec.extractLsb'_append_extractLsb'_eq_extractLsb' (by omega)]
  rw [BitVec.extractLsb'_append_extractLsb'_eq_extractLsb' (by omega)]
  rw [BitVec.extractLsb'_append_extractLsb'_eq_extractLsb' (by omega)]
  rw [BitVec.extractLsb'_append_extractLsb'_eq_extractLsb' (by omega)]
  simp

theorem u_op (op : BitVec 6) (d : BitVec 6) (imm : BitVec 20) :
    ((op ++ d ++ imm : BitVec (6+6+20)).extractLsb' 26 6) = op := by
  simp (disch := omega) only [BitVec.extractLsb'_append_eq_of_le]; simp

theorem u_d (op : BitVec 6) (d : BitVec 6) (imm : BitVec 20) :
    ((op ++ d ++ imm : BitVec (6+6+20)).extractLsb' 20 6) = d := by
  simp (disch := omega) only [BitVec.extractLsb'_append_eq_of_le, BitVec.extractLsb'_append_eq_of_add_le]; simp

theorem u_imm (op : BitVec 6) (d : BitVec 6) (imm : BitVec 20) :
    ((op ++ d ++ imm : BitVec (6+6+20)).extractLsb' 0 20) = imm := by
  simp (disch := omega) only [BitVec.extractLsb'_append_eq_of_add_le]; simp

theorem u_word (w : W32) :
    (w.extractLsb' 26 6 ++ w.extractLsb' 20 6 ++ w.extractLsb' 0 20 : BitVec (6+6+20)) = w := by
  rw [BitVec.extractLsb'_append_extractLsb'_eq_extractLsb' (by omega)]
  rw [BitVec.extractLsb'_append_extractLsb'_eq_extractLsb' (by omega)]
  simp

theorem j_op (op : BitVec 6) (off : BitVec 26) :
    ((op ++ off : BitVec (6+26)).extractLsb' 26 6) = op := by
  simp (disch := omega) only [BitVec.extractLsb'_append_eq_of_le]; simp

theorem j_off (op : BitVec 6) (off : BitVec 26) :
    ((op ++ off : BitVec (6+26)).extractLsb' 0 26) = off := by
  simp (disch := omega) only [BitVec.extractLsb'_append_eq_of_add_le]; simp

theorem j_word (w : W32) :
    (w.extractLsb' 26 6 ++ w.extractLsb' 0 26 : BitVec (6+26)) = w := by
  rw [BitVec.extractLsb'_append_extractLsb'_eq_extractLsb' (by omega)]
  simp

theorem pset_op (op : BitVec 6) (d : BitVec 6) (z : BitVec 4) (mask : BitVec 16) :
    ((op ++ d ++ z ++ mask : BitVec (6+6+4+16)).extractLsb' 26 6) = op := by
  simp (disch := omega) only [BitVec.extractLsb'_append_eq_of_le]; simp

theorem pset_d (op : BitVec 6) (d : BitVec 6) (z : BitVec 4) (mask : BitVec 16) :
    ((op ++ d ++ z ++ mask : BitVec (6+6+4+16)).extractLsb' 20 6) = d := by
  simp (disch := omega) only [BitVec.extractLsb'_append_eq_of_le, BitVec.extractLsb'_append_eq_of_add_le]; simp

theorem pset_z (op : BitVec 6) (d : BitVec 6) (z : BitVec 4) (mask : BitVec 16) :
    ((op ++ d ++ z ++ mask : BitVec (6+6+4+16)).extractLsb' 16 4) = z := by
  simp (disch := omega) only [BitVec.extractLsb'_append_eq_of_le, BitVec.extractLsb'_append_eq_of_add_le]; simp

theorem pset_mask (op : BitVec 6) (d : BitVec 6) (z : BitVec 4) (mask : BitVec 16) :
    ((op ++ d ++ z ++ mask : BitVec (6+6+4+16)).extractLsb' 0 16) = mask := by
  simp (disch := omega) only [BitVec.extractLsb'_append_eq_of_add_le]; simp

theorem pset_word (w : W32) :
    (w.extractLsb' 26 6 ++ w.extractLsb' 20 6 ++ w.extractLsb' 16 4 ++ w.extractLsb' 0 16 : BitVec (6+6+4+16)) = w := by
  rw [BitVec.extractLsb'_append_extractLsb'_eq_extractLsb' (by omega)]
  rw [BitVec.extractLsb'_append_extractLsb'_eq_extractLsb' (by omega)]
  rw [BitVec.extractLsb'_append_extractLsb'_eq_extractLsb' (by omega)]
  simp

/-- The fields of a packed R or V word. -/
theorem unpackR_packR (op d a b : BitVec 6) (p : BitVec 3) (fn : BitVec 5) :
    unpackR (packR op d a b p fn) = { op := op, d := d, a := a, b := b, p := p, fn := fn } := by
  simp only [unpackR, packR, Fld.mk.injEq]
  exact ⟨r_op op d a b p fn, r_d op d a b p fn, r_a op d a b p fn, r_b op d a b p fn, r_p op d a b p fn, r_fn op d a b p fn⟩

/-- A word packed from its own fields. -/
theorem packR_unpackR (w : W32) :
    packR (unpackR w).op (unpackR w).d (unpackR w).a (unpackR w).b (unpackR w).p (unpackR w).fn = w := r_word w

theorem packR_major (op d a b : BitVec 6) (p : BitVec 3) (fn : BitVec 5) : (packR op d a b p fn).extractLsb' 26 6 = op :=
  r_op op d a b p fn

theorem packX_major (e : BitVec 26) : (packX e).extractLsb' 26 6 = 0x3F#6 := j_op 0x3F#6 e
theorem packX_ext (e : BitVec 26) : (packX e).extractLsb' 0 26 = e := j_off 0x3F#6 e
theorem isX_packX (e : BitVec 26) : isX (packX e) = true := by simp [isX, packX_major]

/-- The X fields of a packed extension. -/
theorem xwOf_extOfXW (x : XW) (h : x.has = true) : xwOf (some (extOfXW x)) = x := by
  obtain ⟨has, rm, scp, ord, neg, ximm⟩ := x
  have h1 : (ximm ++ BitVec.ofBool neg ++ ord ++ scp ++ rm : BitVec (17+1+2+3+3)).extractLsb' 0 3 = rm := by
    simp (disch := omega) only [BitVec.extractLsb'_append_eq_of_add_le]; simp
  have h2 : (ximm ++ BitVec.ofBool neg ++ ord ++ scp ++ rm : BitVec (17+1+2+3+3)).extractLsb' 3 3 = scp := by
    simp (disch := omega) only [BitVec.extractLsb'_append_eq_of_le, BitVec.extractLsb'_append_eq_of_add_le]; simp
  have h3 : (ximm ++ BitVec.ofBool neg ++ ord ++ scp ++ rm : BitVec (17+1+2+3+3)).extractLsb' 6 2 = ord := by
    simp (disch := omega) only [BitVec.extractLsb'_append_eq_of_le, BitVec.extractLsb'_append_eq_of_add_le]; simp
  have h4 : (ximm ++ BitVec.ofBool neg ++ ord ++ scp ++ rm : BitVec (17+1+2+3+3)).extractLsb' 8 1 = BitVec.ofBool neg := by
    simp (disch := omega) only [BitVec.extractLsb'_append_eq_of_le, BitVec.extractLsb'_append_eq_of_add_le]; simp
  have h5 : (ximm ++ BitVec.ofBool neg ++ ord ++ scp ++ rm : BitVec (17+1+2+3+3)).extractLsb' 9 17 = ximm := by
    simp (disch := omega) only [BitVec.extractLsb'_append_eq_of_le]; simp
  have h : has = true := h
  simp only [xwOf, extOfXW, XW.mk.injEq]
  refine ⟨h.symm, h1, h2, h3, ?_, h5⟩
  rw [h4]; cases neg <;> rfl

/-- An extension packed from its own X fields. -/
theorem extOfXW_xwOf (e : BitVec 26) : extOfXW (xwOf (some e)) = e := by
  have h : BitVec.ofBool (e.extractLsb' 8 1 == 1#1) = e.extractLsb' 8 1 := by
    generalize e.extractLsb' 8 1 = y
    revert y; decide
  simp only [xwOf, extOfXW, h]
  have key : (e.extractLsb' 9 17 ++ e.extractLsb' 8 1 ++ e.extractLsb' 6 2 ++ e.extractLsb' 3 3 ++ e.extractLsb' 0 3 : BitVec (17+1+2+3+3)) = e := by
    rw [BitVec.extractLsb'_append_extractLsb'_eq_extractLsb' (by omega)]
    rw [BitVec.extractLsb'_append_extractLsb'_eq_extractLsb' (by omega)]
    rw [BitVec.extractLsb'_append_extractLsb'_eq_extractLsb' (by omega)]
    rw [BitVec.extractLsb'_append_extractLsb'_eq_extractLsb' (by omega)]
    simp
  exact key

/-- The word of its own bytes, and the bytes of their word. -/
theorem wordOfBytes_bytes (w : W32) :
    wordOfBytes (w.extractLsb' 0 8) (w.extractLsb' 8 8) (w.extractLsb' 16 8) (w.extractLsb' 24 8) = w := by
  have key : (w.extractLsb' 24 8 ++ w.extractLsb' 16 8 ++ w.extractLsb' 8 8 ++ w.extractLsb' 0 8 : BitVec (8+8+8+8)) = w := by
    rw [BitVec.extractLsb'_append_extractLsb'_eq_extractLsb' (by omega)]
    rw [BitVec.extractLsb'_append_extractLsb'_eq_extractLsb' (by omega)]
    rw [BitVec.extractLsb'_append_extractLsb'_eq_extractLsb' (by omega)]
    simp
  exact key

theorem bytesOfWord_wordOfBytes (b0 b1 b2 b3 : Byte) : bytesOfWord (wordOfBytes b0 b1 b2 b3) = [b0, b1, b2, b3] := by
  have h0 : (b3 ++ b2 ++ b1 ++ b0 : BitVec (8+8+8+8)).extractLsb' 0 8 = b0 := by
    simp (disch := omega) only [BitVec.extractLsb'_append_eq_of_add_le]; simp
  have h1 : (b3 ++ b2 ++ b1 ++ b0 : BitVec (8+8+8+8)).extractLsb' 8 8 = b1 := by
    simp (disch := omega) only [BitVec.extractLsb'_append_eq_of_le, BitVec.extractLsb'_append_eq_of_add_le]; simp
  have h2 : (b3 ++ b2 ++ b1 ++ b0 : BitVec (8+8+8+8)).extractLsb' 16 8 = b2 := by
    simp (disch := omega) only [BitVec.extractLsb'_append_eq_of_le, BitVec.extractLsb'_append_eq_of_add_le]; simp
  have h3 : (b3 ++ b2 ++ b1 ++ b0 : BitVec (8+8+8+8)).extractLsb' 24 8 = b3 := by
    simp (disch := omega) only [BitVec.extractLsb'_append_eq_of_le]; simp
  simp only [bytesOfWord, wordOfBytes, List.cons.injEq, and_true]
  exact ⟨h0, h1, h2, h3⟩

/-- Decoding the bytes of one word that is no X word, and of an X word and the word after it. -/
theorem decode_one (w : W32) (h : isX w = false) :
    decode (bytesOfWord w) = (match decodeWord none w with | .ok i => .ok (i, []) | .error e => .error e) := by
  simp only [decode, bytesOfWord, wordOfBytes_bytes, h]
  rfl

theorem decode_two (e : BitVec 26) (w : W32) :
    decode (bytesOfWord (packX e) ++ bytesOfWord w) =
      (match decodeWord (some e) w with | .ok i => .ok (i, []) | .error r => .error r) := by
  simp only [decode, bytesOfWord, List.cons_append, List.nil_append, wordOfBytes_bytes, isX_packX, packX_ext, if_true] <;> rfl

end Sys2Proof
end

