-- ==== Sys2Proof/Tests/Slice0.lean ====
section
/-! SUPPORT. Tests: ill-formed terms, words of the spec's own examples, one step of instructions on small states with results
from the spec's examples or worked by hand from its tables, and a witness for the hypotheses of each statement. -/

namespace Sys2Proof.Tests
open Sys2Proof Sys2Proof.Machine

-- One theorem at a time: each waiting theorem would take a thread with a stack of its own.
set_option Elab.async false

/-! ## Small states -/

/-- An R word without a prefix. -/
def rr (d a b : Nat) : OpR := { d := BitVec.ofNat 6 d, a := BitVec.ofNat 6 a, b := BitVec.ofNat 6 b, p := 0, x := XW.none }
/-- An R word with XIMM and RM. -/
def rx (d a b ximm rm : Nat) : OpR :=
  { rr d a b with x := { XW.none with has := true, ximm := BitVec.ofNat 17 ximm, rm := BitVec.ofNat 3 rm } }
/-- An M word. -/
def mw (t a off : Nat) : OpM := { t := BitVec.ofNat 6 t, a := BitVec.ofNat 6 a, off := BitVec.ofNat 11 off, p := 0, has := false, neg := false, offh := 0 }
/-- A task of a FREE domain on context 0, in U mode, with registers set. -/
def uTask : Task := { bootTask 0 with super := false, csc := 3 }
def st (rs : List (Nat × Nat)) : State :=
  { State.reset with cx := rs.foldl (fun c r => setG c r.1 (BitVec.ofNat 64 r.2)) { Ctx.reset with task := some uTask, pc := 0x20000 } }
/-- The same in S mode, with HBM mapped to the lower half of the address space (log 28). -/
def sup (rs : List (Nat × Nat)) : State :=
  let s := State.reset.withFetchWord 32 0xB8000007
  { s with cx := rs.foldl (fun c r => setG c r.1 (BitVec.ofNat 64 r.2)) s.cx }
/-- A vector of lanes. -/
def vOf (l : List Nat) : Vec := ofLanes (fun i => BitVec.ofNat 32 (l.getD i 0))
/-- With vector registers set. -/
def stv (vs : List (Nat × List Nat)) : State :=
  let s := st [(9, 0x1000)]
  { s with cx := { s.cx with v := vs.foldl (fun m x => setD m 0 x.1 (vOf x.2)) [] } }
/-- What a predicate says of the next state. -/
def nextHas (x : Host.Outcome State Fault Refusal) (p : State → Bool) : Bool :=
  match x with
  | .next t => p t
  | _ => false
/-- A register after an instruction. -/
def g (i : Instr) (s : State) (n : Nat) : Option Nat :=
  match exec i s with
  | .next t => some (gReg t.cx n).toNat
  | _ => none
/-- The lanes of a vector register after an instruction. -/
def lanes (i : Instr) (s : State) (n : Nat) : List Nat :=
  match exec i s with
  | .next t => (range' 0 16).map (fun k => (lane (getD t.cx.v 0 n) k).toNat)
  | _ => []
/-- What a predicate says of what an action answers. -/
def ok {α : Type} (x : Act α) (s : State) (p : α → State → Bool) : Bool :=
  match x s with
  | .ok a t => p a t
  | _ => false
theorem does_of_ok {α : Type} {x : Act α} {s : State} {p : α → State → Bool} (h : ok x s p = true) :
    ∃ a t, Does x s a t ∧ p a t = true := by
  unfold ok at h
  split at h
  · exact ⟨_, _, by assumption, h⟩
  · exact absurd h (by decide)

/-! ## Ill-formed terms (R230, R232, R265, R308, R314) -/

theorem wf_add : (Instr.add (rr 8 9 10)).wf = true := by decide
theorem wf_refuses_x_fields_without_x : (Instr.add { rr 8 9 10 with x := { XW.none with neg := true } }).wf = false := by decide
theorem wf_refuses_unused_d : (Instr.nop (rr 1 0 0)).wf = false := by decide
theorem wf_refuses_unused_a : (Instr.fence (rr 0 1 0)).wf = false := by decide
theorem wf_refuses_unused_b : (Instr.clz (rr 8 9 1)).wf = false := by decide
theorem wf_refuses_unused_p : (Instr.pnot { rr 1 2 0 with b := 3 }).wf = false := by decide
theorem wf_refuses_immh_without_x : (Instr.addi { d := 8, a := 9, imm := 1, has := false, immh := 1 }).wf = false := by decide
theorem wf_refuses_offh_without_x : (Instr.ldW { mw 8 9 0 with offh := 1 }).wf = false := by decide
theorem wf_refuses_enter_of_48 : (Instr.enter (rr 0 0 6)).wf = false ∧ (Instr.enter (rr 0 0 0)).wf = false := by decide
theorem wf_refuses_other_kind_of_vscale : (Instr.vscaleF32 (rx 4 2 3 1 0)).wf = false ∧ (Instr.vscaleI32 (rx 4 2 3 0 0)).wf = false := by
  decide
theorem wf_refuses_other_kind_of_kld : (Instr.kldE4m3 (rx 4 2 0 1 0)).wf = false ∧ (Instr.kldBf16 (rr 4 2 0)).wf = false := by decide
theorem wf_refuses_events : (Instr.postedAtomicPerformed 0).wf = false := by decide

/-! ## Words of the spec's examples (08 R246, 09, 10, 11, 16) -/

theorem decode_enter : decodeTableWord 32 0x48000203 = some (.enter (rr 0 0 2)) := by decide +kernel
theorem decode_add : decodeTableWord 32 0x01043001 = some (.add (rr 16 16 48)) := by decide +kernel
theorem decode_bqe : decodeTableWord 32 0x3F000002 = some (.bqe { a := 48, off := 2 }) := by decide +kernel
theorem decode_jmp : decodeTableWord 32 0x43FFFFFE = some (.jmp { off := 0x3FFFFFE }) := by decide +kernel
theorem decode_ret : decodeTableWord 32 0x48000002 = some (.ret (rr 0 0 0)) := by decide +kernel
theorem decode_bfx : decodeTableWord 32 0x18D3C30C = some (.bfx { d := 13, a := 15, len := 12, pos := 12 }) := by decide +kernel
theorem decode_addi_prefixed : (decode ([0xFC000006#32, 0x049006A0#32].flatMap bytesOfWord)).toOption =
    some (.addi { d := 9, a := 0, imm := 0x6A0, has := true, immh := 6 }, []) := by decide +kernel
theorem decode_add_not_p3 : (decode ([0xFC000100#32, 0x005C3061#32].flatMap bytesOfWord)).toOption =
    some (.add { d := 5, a := 48, b := 48, p := 3, x := { XW.none with has := true, neg := true } }, []) := by decide +kernel
theorem decode_ld : decodeTableWord 32 0x68910020 = some (.ldW (mw 9 4 4)) := by decide +kernel
theorem decode_st : decodeTableWord 32 0x7CC0BFF8 = some (.stD (mw 12 2 0x7FF)) := by decide +kernel
theorem decode_lds : decodeTableWord 32 0x8CA1C042 = some (.ldsD { mw 10 7 8 with p := 2 }) := by decide +kernel
theorem decode_stbm : (decode ([0xFC000400#32, 0x54B2B00B#32].flatMap bytesOfWord)).toOption =
    some (.stbm (rx 11 10 48 2 0), []) := by decide +kernel
theorem decode_qbind : decodeTableWord 32 0xAF024000 = some (.qbind (rr 48 9 0)) := by decide +kernel
theorem decode_vfma : decodeTableWord 32 0xA080B303 = some (.vfmaF32 (rr 8 2 51)) := by decide +kernel
theorem decode_vred : decodeTableWord 32 0xA051000D = some (.vredAddF32 (rr 5 4 0)) := by decide +kernel
theorem decode_vscan : decodeTableWord 32 0xA0610010 = some (.vscanAddF32 (rr 6 4 0)) := by decide +kernel
theorem decode_vcvt : (decode ([0xFC000601#32, 0xA870C009#32].flatMap bytesOfWord)).toOption =
    some (.vcvt (rx 7 3 0 3 1), []) := by decide +kernel
theorem decode_tspawn : decodeTableWord 32 0xB0024A00 = some (.tspawn (rr 0 9 10)) := by decide +kernel
theorem decode_rawait : decodeTableWord 32 0xB092800F = some (.rawait (rr 9 10 0)) := by decide +kernel
theorem decode_synci : decodeTableWord 32 0x5402450F = some (.synci (rr 0 9 5)) := by decide +kernel
/-- MEMX fn 13 with no prefix. ATOM fn 1 at major 0x16. -/
theorem decode_fence : decodeTableWord 32 0x5400000D = some (.fence (rr 0 0 0)) := by decide +kernel

/-! ## One step, with results from the spec's examples or by hand -/

theorem test_add_wraps : g (.add (rr 8 9 10)) (st [(9, 2 ^ 64 - 1), (10, 1)]) 8 = some 0 := by decide +kernel
theorem test_mulhi_signed : g (.mulhi (rr 8 9 10)) (st [(9, 2 ^ 64 - 1), (10, 1)]) 8 = some (2 ^ 64 - 1) := by decide +kernel
theorem test_div_towards_zero : g (.div (rr 8 9 10)) (st [(9, 2 ^ 64 - 7), (10, 2)]) 8 = some (2 ^ 64 - 3) := by decide +kernel
theorem test_rem_sign_of_dividend : g (.rem (rr 8 9 10)) (st [(9, 2 ^ 64 - 7), (10, 2)]) 8 = some (2 ^ 64 - 1) := by decide +kernel
theorem test_shl_low_six : g (.shl (rr 8 9 10)) (st [(9, 3), (10, 65)]) 8 = some 6 := by decide +kernel
theorem test_srai : g (.srai (rr 8 9 63)) (st [(9, 2 ^ 63)]) 8 = some (2 ^ 64 - 1) := by decide +kernel
theorem test_lea3 : g (.lea3 (rr 8 9 10)) (st [(9, 5), (10, 2)]) 8 = some 21 := by decide +kernel
theorem test_g0_discards : g (.add (rr 0 9 10)) (st [(9, 5), (10, 2)]) 0 = some 0 := by decide +kernel
theorem test_clz_of_zero : g (.clz (rr 8 9 0)) (st []) 8 = some 64 := by decide +kernel
theorem test_sxt_b : g (.sxtB (rr 8 9 0)) (st [(9, 0x180)]) 8 = some (2 ^ 64 - 128) := by decide +kernel
theorem test_addi_negative : g (.addi { d := 8, a := 9, imm := 0x3FFF, has := false, immh := 0 }) (st [(9, 0)]) 8 = some (2 ^ 64 - 1) := by
  decide +kernel
theorem test_bfx_s : g (.bfxS { d := 8, a := 9, len := 3, pos := 4 }) (st [(9, 0x80)]) 8 = some (2 ^ 64 - 8) := by decide +kernel
theorem test_bfi : g (.bfi { d := 8, a := 9, len := 7, pos := 8 }) (st [(8, 0xFFFFFF), (9, 0x12)]) 8 = some 0xFF12FF := by decide +kernel
theorem test_lih : g (.lih { d := 8, imm := 0xFFFFF }) (st []) 8 = some (2 ^ 64 - 2 ^ 14) := by decide +kernel
theorem test_blt_back : nextHas (exec (.blt { a := 8, b := 9, off := 0x3FFE }) (st [(8, 2 ^ 64 - 1)]))
    (fun t => t.cx.pc == 0x1FFF8) = true := by decide +kernel
theorem test_bltu_not_taken : nextHas (exec (.bltu { a := 8, b := 9, off := 0x3FFE }) (st [(8, 2 ^ 64 - 1)]))
    (fun t => t.cx.pc == 0x20004) = true := by decide +kernel
/-- CALL from a frame of 40: g1 is the return address, the callee's frame begins 32 registers on. -/
theorem test_call : nextHas (exec (.call { off := 4 }) (st []))
    (fun t => t.cx.pc == 0x20010 && gReg t.cx 1 == 0x20004 && t.cx.fb == 32 && t.cx.size == 8) = true := by decide +kernel
theorem test_pseti_pcnt : nextHas (exec (.pseti { d := 3, mask := 0xA5C3 }) (st []))
    (fun t => g (.pcnt (rr 8 3 0)) t 8 == some 8) = true := by decide +kernel
/-- A misaligned JMPR faults ALIGN; without a free record the context waits for one (R397). -/
theorem test_jmpr_misaligned : nextHas (exec (.jmpr (rr 0 9 0)) (st [(9, 6)]))
    (fun t => t.cx.wait == some (.record { f := faultAt cALIGN 6, pc := 0x20000, ir := [] }) && t.cx.pc == 0x20000) = true := by
  decide +kernel
/-- TRAP 5 with TVEC.EN = 1 and ENTRY 0x400: cause 0x105, epc behind the word, S mode (R339, R399). -/
theorem test_trap : nextHas (exec (.trap (rr 0 0 5)) (setDev (st []) 0x100800 0x401))
    (fun t => t.cx.cause == 0x105 && t.cx.epc == 0x20004 && t.cx.pc == 0x400 && t.cx.mode && !t.cx.pmode) = true := by decide +kernel
theorem test_brk_epc : nextHas (exec (.brk (rr 0 0 1)) (setDev (st []) 0x100800 0x401))
    (fun t => t.cx.cause == 0x141 && t.cx.epc == 0x20000) = true := by decide +kernel
/-- A store is seen by its own context's load, and not yet by memory (R61, R62). -/
theorem test_sts_then_lds : nextHas (exec (.stsW (mw 10 9 0)) (st [(9, 0x40), (10, 0x1_23456789)]))
    (fun t => g (.ldsD (mw 8 9 0)) t 8 == some 0x23456789 && rdNat t 0x40 4 == 0) = true := by decide +kernel
theorem test_ld_mapped : g (.ldH (mw 8 9 1)) (sup [(9, 0x20000)]) 8 = some 0xB800 := by decide +kernel
theorem test_amo_max_signed : nextHas (exec (.amoMaxWS (rr 8 9 10)) (wrBytes (st [(9, 0x80), (10, 1)]) 0x80 [0xFF, 0xFF, 0xFF, 0xFF]))
    (fun t => gReg t.cx 8 == 0xFFFFFFFF && rdNat t 0x80 4 == 1) = true := by decide +kernel
theorem test_cas_fails : nextHas (exec (.casDS (rr 8 9 10)) (wrBytes (st [(8, 4), (9, 0x80), (10, 1)]) 0x80 [3]))
    (fun t => gReg t.cx 8 == 3 && rdNat t 0x80 8 == 3) = true := by decide +kernel
/-- The spec's tree and chain (10, worked example). -/
def treeV : State := stv [(4, [0x4B800000, 0x3F800000, 0x3F800000, 0x3F800000])]
theorem test_vred_tree : lanes (.vredAddF32 (rr 5 4 0)) treeV 5 = 0x4B800001 :: List.replicate 15 0 := by decide +kernel
theorem test_vred_tree_rup : lanes (.vredAddF32 (rx 5 4 0 0 3)) treeV 5 = 0x4B800002 :: List.replicate 15 0 := by decide +kernel
theorem test_vscan_chain : lanes (.vscanAddF32 (rr 6 4 0)) treeV 6 = List.replicate 16 0x4B800000 := by decide +kernel
theorem test_vscan_chain_rup : lanes (.vscanAddF32 (rx 6 4 0 0 3)) treeV 6 =
    [0x4B800000, 0x4B800001, 0x4B800002] ++ List.replicate 13 0x4B800003 := by decide +kernel
/-- The spec's VCVT example (10, after R312): 300, 460, −460 and 0.001 to E4M3 under RTZ. -/
theorem test_vcvt_e4m3 : (lanes (.vcvt (rx 7 3 0 3 1)) (stv [(3, [0x43960000, 0x43E60000, 0xC3E60000, 0x3A83126F])]) 7).take 4 =
    [0x79, 0x7E, 0xFE, 0] := by decide +kernel
/-- VRCP.RTZ of 2^−149 (10, after Table 10-1), and Table 10-2's zero. -/
theorem test_vrcp : (lanes (.vrcp (rx 7 3 0 0 1)) (stv [(3, [1, 0x80000000])]) 7).take 2 = [0x7F7FFFFF, 0xFF800000] := by decide +kernel
theorem test_vcmp_nan : nextHas (exec (.vcmpNeF32 (rr 2 3 4)) (stv [(3, [0x7FC00000]), (4, [0x7FC00000])]))
    (fun t => pReg t.cx 2 == 1) = true := by decide +kernel
theorem test_vadd_i32_wraps : (lanes (.vaddI32 (rr 5 3 4)) (stv [(3, [0xFFFFFFFF]), (4, [2])]) 5).take 2 = [1, 0] := by decide +kernel
theorem test_vperm_low_four : (lanes (.vperm (rr 5 3 4)) (stv [(3, [7, 8]), (4, [0x11, 0x10])]) 5).take 3 = [8, 7, 7] := by decide +kernel
theorem test_vdot4 : (lanes (.vdot4I8 (rr 5 3 4)) (stv [(3, [0xFF010203]), (4, [0x01010101]), (5, [10])]) 5).take 1 = [15] := by
  decide +kernel
theorem test_kld_clears : nextHas (exec (.kldE4m3 (rr 1 3 0)) (stv [(3, [1, 2, 3, 4, 5])]))
    (fun t => getD t.cx.k 0 1 == 0x00000004000000030000000200000001) = true := by decide +kernel
theorem test_barinit : nextHas (exec (.barinit (rr 0 9 10)) (st [(9, 0x100), (10, 3)]))
    (fun t => rdNat t 0x100 2 == 3 && rdNat t 0x102 2 == 3) = true := by decide +kernel
/-- MFS of status in S mode: MODE, CSC 4, PRIO 63 (Table 8-3). -/
theorem test_mfs_status : g (.mfs (rr 8 7 0)) (sup []) 8 = some 0x3F0410 := by decide +kernel
theorem test_wfe_takes_flag : nextHas (exec (.wfe (rr 0 0 9)) (let s := st []; { s with cx := { s.cx with ev := true } }))
    (fun t => !t.cx.ev && t.cx.wait.isNone) = true := by decide +kernel
theorem test_futres : nextHas (exec (.futres (rr 0 9 10)) (st [(9, 0x40), (10, 0x2000)])) (fun t => rdNat t 0x40 8 == 0x20000002) = true := by
  decide +kernel
/-- HSEM: p0 takes it, which bit 0 says; a second taker with an old value has nothing (R415). -/
theorem test_hsem : nextHas (exec (.hsemCas .p0 0 1) State.reset) (fun t => dev t 0x100A00 % 4 == 1) = true := by decide +kernel
/-- Two undefined bits of a word: it is poisoned (R43). -/
theorem test_scrub : nextHas (exec (.bankScrub 0 .double) State.reset) (fun t => poisoned t 0 8) = true := by decide +kernel
/-- The step runs the word at the pc, the first instruction after reset. -/
theorem test_step_runs_nop : nextHas (step (State.reset.withFetchWord 32 0xB8000007)) (fun t => t.cx.pc == 0x20004) = true := by
  decide +kernel
theorem test_reset_mem : memWf State.reset = true := by decide

/-! ## Witnesses: states and operands that meet the hypotheses of the statements -/

/-! ## Witnesses: for each statement, states and operands that meet the hypotheses of each of its clauses. Where a clause
speaks of what actions give (Does), nested `ok` runs them one after the other; does_of_ok turns it into the hypotheses. -/

/-- The predicates hold nowhere: an R word with predicate p1. -/
def off1 (o : OpR) : OpR := { o with p := 1 }
/-- Fault records of die 0 at the first bank site (R397). -/
def recd (s : State) : State := setDev s 0x100810 1
/-- A pattern of no elements on port q0. -/
def quiet0 (s : State) : State := { s with cx := { s.cx with ports := [(0, { Port.free with bind := .pattern 0 })] } }

theorem witness_DecodeOfEncode : (Instr.addi { d := 63, a := 63, imm := 0x3FFF, has := true, immh := 0x3FFFFFF }).wf = true ∧
    (Instr.vfmaF32 (rx 63 62 61 0 4)).wf = true := by decide
theorem witness_EncodeOfDecode : (decode ([0xFC000006#32, 0x049006A0#32, 1#32].flatMap bytesOfWord)).toOption =
    some (.addi { d := 9, a := 0, imm := 0x6A0, has := true, immh := 6 }, bytesOfWord 1) := by decide +kernel
theorem witness_StepRunsDecoded_due :
    let s := updDisp State.reset 0 (fun d => { d with cancelDue := true })
    Powered s ∧ s.host.standby = false ∧
      (due s)[pickIdx ((due s).length + (readyCores s).length) s.draws]? = some (.jcancelLinearise 0) := by decide +kernel
theorem witness_StepRunsDecoded_issue :
    let s := State.reset.withFetchWord 32 0xB8000007
    Powered s ∧ s.host.standby = false ∧ (due s).length ≤ pickIdx ((due s).length + (readyCores s).length) s.draws ∧
      (readyCores s)[pickIdx ((due s).length + (readyCores s).length) s.draws - (due s).length]? = some 0 ∧
      (pickCtx { s with draws := s.draws + 1 } 0).any (fun x => (ctxOf s x.1).trapNext == [] && decide ((ctxOf s x.1).refill ≠ .due) &&
        match fetchInsn (focus { s with draws := s.draws + 1 } x.1) with
        | .ok (ws, _) => (decode (ws.flatMap bytesOfWord)).toOption == some (.nop (rr 0 0 0), [])
        | _ => false) = true := by decide +kernel
theorem witness_StepRunsDecoded_majors : [0xBC000000#32, 0xFBFFFFFF#32].all (fun w =>
    decide (0x2F ≤ (w.extractLsb' 26 6).toNat ∧ (w.extractLsb' 26 6).toNat ≤ 0x3E)) = true := by decide +kernel
theorem witness_StepRunsDecoded_illegal :
    let s := State.reset.withFetchWord 32 0xBC000000
    Running s ∧ s.cx.trapNext = [] ∧ s.cx.refill ≠ .due ∧ (match fetchInsn s with
      | .ok (ws, _) => (decode (ws.flatMap bytesOfWord)).toOption.isNone
      | _ => false) = true := by decide +kernel
theorem witness_EveryInstructionMoves : Running (st []) ∧ Powered State.reset ∧
    ¬ Powered { State.reset with host := { HostSt.reset with off := true } } := by decide +kernel
theorem witness_ResetValues : siteKind State.reset (0xC2FFFFFF / 2 ^ 30 % 4) (0xC2FFFFFF / 2 ^ 18 % 4096) = 0xB := by decide +kernel
theorem witness_MemoryReadsBack : memWf (wrBytes State.reset 7 [1, 0, 2]) = true := by decide +kernel
theorem witness_TrapEntry :
    let s := recd (setDev (st []) 0x100800 1)
    let x : Pend := { f := faultAt cALIGN 6, pc := 0x20000, ir := [] }
    s.cx.task = some uTask ∧ Running s ∧ Free s ∧ x.f.cause < 0x100 ∧ x.f.cause ≠ cECC ∧ bit (dev s 0x100800) 0 = true ∧
      (writeRec s (cidDie s.cur) (ctxRec s s.cur uTask x)).isSome = true ∧ Plain (rr 0 0 63) ∧ On s (rr 0 0 63) := by decide +kernel
theorem witness_EretAndPrivilege :
    (let s := sup []; Running s ∧ Plain (rr 0 0 0) ∧ On s (rr 0 0 0) ∧ Free s ∧ s.cx.mode = true ∧ s.cx.epc.toNat % 4 = 0) ∧
    (let s := st []; Running s ∧ s.cx.mode = false ∧ On s (rr 0 0 0) ∧ IsReg s 8 ∧ 9 ≤ (rr 8 9 0).a.toNat ∧ (rr 8 11 0).a.toNat ≤ 11 ∧
      [4, 5, 6, 7, 9, 10, 11].all (fun n => (rr n 8 0).d.toNat == n) = true) := by decide +kernel
theorem witness_SystemRegisters :
    (let s := st []; Running s ∧ Plain (rr 8 4 0) ∧ On s (rr 8 4 0) ∧ IsReg s 8 ∧ (sysView s 4).isSome = true ∧
      ¬ (9 ≤ (rr 8 4 0).a.toNat ∧ (rr 8 4 0).a.toNat ≤ 11) ∧ Free s ∧ IsReg s 47 ∧ (rr 18 0 47).d.toNat = 16 + 2) ∧
    (let s := sup []; Running s ∧ s.cx.mode = true ∧ (sysView s 11).isSome = true ∧ Free s ∧ IsReg s 8 ∧ (rr 7 0 8).d = 7) := by
  decide +kernel
/-- g47 is the last register of the first frame; the operands are the extremes that wrap. -/
theorem witness_IntegerTwoOperands : let s := st [(47, 2 ^ 63), (46, 2 ^ 64 - 1)]
    Running s ∧ Plain (rr 47 47 46) ∧ On s (rr 47 47 46) ∧ IsReg s 47 ∧ IsReg s 46 ∧ IsReg s 0 ∧ ¬ IsReg s 48 := by decide +kernel
theorem witness_DivisionEdges : let s := st [(9, 2 ^ 63), (10, 2 ^ 64 - 1)]
    Running s ∧ Plain (rr 8 9 0) ∧ On s (rr 8 9 0) ∧ IsReg s 8 ∧ IsReg s 9 ∧ IsReg s 0 ∧ IsReg s 10 ∧ reg s 0 = 0 ∧
      reg s 9 = 0x8000000000000000 ∧ reg s 10 = 0xFFFFFFFFFFFFFFFF := by decide +kernel
theorem witness_IntegerOneOperand : let s := st [(9, 2 ^ 63)]
    Running s ∧ Plain (rr 8 9 63) ∧ On s (rr 8 9 63) ∧ IsReg s 8 ∧ IsReg s 9 := by decide +kernel
theorem witness_IntegerImmediates : let s := st [(9, 2 ^ 63)]
    Running s ∧ IsReg s 8 ∧ IsReg s 9 := by decide +kernel
/-- ADD of a port without elements and a register: the port is read, and ends. -/
theorem witness_IntegerAnyOperand : let s := quiet0 (st [(9, 5)])
    Running s ∧ Plain (rr 8 48 9) ∧ On s (rr 8 48 9) ∧
      ok (checkG 8) s (fun _ s1 => ok (rdG 48) s1 (fun a s2 => ok (rdG 9) s2 (fun b s3 => ok (wrG 8 (a + b)) s3 (fun _ s4 =>
        gReg s4.cx 8 == 5 && (portAt s4.cx 0).eos)))) = true := by decide +kernel
theorem witness_PredicatedOffDoesNothing : let s := st []
    Running s ∧ Plain (off1 (rr 8 9 10)) ∧ ¬ On s (off1 (rr 8 9 10)) ∧
      govern s (off1 (rr 3 4 5)).p (off1 (rr 3 4 5)).x.neg = 0 ∧ isV 3 = true ∧ isV 4 = true ∧ isV 5 = true ∧ isQ 3 = false := by
  decide +kernel
theorem witness_FieldsAndConstants : let s := st []
    Running s ∧ Plain (rr 8 9 10) ∧ IsReg s 8 ∧ IsReg s 9 ∧ IsReg s 10 ∧
      (let o : OpBf := { d := 8, a := 9, len := 0, pos := 63 }; o.pos.toNat + o.len.toNat + 1 ≤ 64) ∧
      (let o : OpBf := { d := 8, a := 9, len := 63, pos := 0 }; o.pos.toNat + o.len.toNat + 1 ≤ 64) := by decide +kernel
theorem witness_CompareBranches : let s := quiet0 (st [(8, 2 ^ 64 - 1)])
    Running s ∧ s.cx.pc.toNat % 4 = 0 ∧ IsReg s 8 ∧ IsReg s 9 ∧
      ok (rdG 48) s (fun _ s1 => ok (rdG 9) s1 (fun _ _ => true)) = true := by decide +kernel
theorem witness_OtherBranches : let s := st []
    Running s ∧ s.cx.pc.toNat % 4 = 0 ∧ isQ 63 = true ∧ (7 : BitVec 6).toNat < 8 ∧ (2 : BitVec 6).toNat < 3 := by decide +kernel
theorem witness_JumpsAndCalls_calls : let s := st [(9, 6)]
    Running s ∧ s.cx.pc.toNat % 4 = 0 ∧ s.cx.size = 40 ∧ { s.cx with size := 8 }.size ≠ 40 ∧ Plain (rr 0 9 0) ∧ On s (rr 0 9 0) ∧
      IsReg s 9 ∧ (reg s 9).toNat % 4 ≠ 0 ∧ IsReg s 0 ∧ (reg s 0).toNat % 4 = 0 := by decide +kernel
theorem witness_JumpsAndCalls_frames :
    let s := let s := st []; { s with cx := { s.cx with fb := 32, size := 8 } }
    Running s ∧ On s (rr 0 0 5) ∧ s.cx.fb ≠ 0 ∧ s.cx.rlo + 32 ≤ s.cx.fb.toNat ∧ (gReg s.cx 1).toNat % 4 = 0 ∧
      1 ≤ (rr 0 0 5).b.toNat ∧ (rr 0 0 5).b.toNat ≤ 5 ∧ s.cx.fb.toNat + 8 * (rr 0 0 5).b.toNat ≤ 256 + s.cx.rlo := by decide +kernel
theorem witness_PredicateInstructions : let s := st []
    Running s ∧ Plain (rr 7 0 6) ∧ govern s (rr 7 0 6).p (rr 7 0 6).x.neg ≠ 0 ∧ isPd 7 = true ∧ isPd 1 = true ∧ isP 0 = true ∧
      isP 6 = true ∧ On s (rr 8 0 0) ∧ IsReg s 8 := by decide +kernel

/-- As sup, with the device registers mapped from 4 TiB on. -/
def supd (rs : List (Nat × Nat)) : State :=
  updCore (wrBytes (sup rs) (locHbm 0x10008) (bytesOfNat 8 0xC7)) 0 (fun c => { c with
    tlb := c.tlb ++ [{ page := 2 ^ 42, bits := 42, leaf := 0xC7 }] })
/-- A supervisor region: the first 64 lines of S-space. -/
def supRegion (s : State) : State := setDev s 0x100100 (BitVec.ofNat 64 (5 + 63 * 2 ^ 38))

theorem witness_AddressChecks_va : let s := sup []
    canon (BitVec.ofNat 64 (2 ^ 56)) = false ∧ (canon 0x20001 = true ∧ (0x20001 : W64).toNat % 2 ≠ 0) ∧
    ((BitVec.ofNat 64 (2 ^ 43)).toNat % 8 = 0 ∧ (match coreLeaf s s.cur (2 ^ 43) with
      | .walks _ => true
      | _ => false) = true) ∧
    (let u := { s with cx := { s.cx with walked := [(pageOf (2 ^ 43), none)] } }
     (match coreLeaf u u.cur (2 ^ 43) with
      | .faults => true
      | _ => false) = true) ∧
    (let u := { s with cx := { s.cx with mode := false } }
     (match coreLeaf u u.cur 0x20000 with
      | .held e _ => !permits e.leaf.toNat .rd u.cx.mode
      | _ => false) = true) := by decide +kernel
theorem witness_AddressChecks_s : let s := supRegion (st [])
    (2 ^ 32 ≤ (0x100000000 : W64).toNat) ∧ ((0xFFFFFFFF : W64).toNat < 2 ^ 32 ∧ sPlace s 0xFFFFFFFF = .absent) ∧
    (sPlace s 0x41 = .bank ∧ (0x41 : W64).toNat % 4 ≠ 0) ∧ ((srgn s 0x40).2 = true ∧ sPlace s 0x40 = .bank ∧ (0x40 : W64).toNat % 8 = 0) ∧
    ((srgn s 0x2000).2 = false ∧ sPlace s 0x2000 = .bank) := by decide +kernel
theorem witness_Loads_s : let s := st [(9, 0x48)]
    Running s ∧ OnM s (mw 10 9 0) ∧ IsReg s 10 ∧ IsReg s 9 ∧
      ok (xlAny true (reg s 9 + offOf (mw 10 9 0) 8) .rd 8 true) s (fun x s1 => decide (x.t ≠ 3 ∧ x.c = false ∧ x.loc < peerBase ∧ s1.cx = s.cx ∧
        Quiet s1 x.loc 8)) = true := by decide +kernel
theorem witness_Loads_any : let s := quiet0 (sup [(9, 0x20000)])
    Running s ∧ OnM s (mw 10 48 0) ∧ ok (checkG 10) s (fun _ s1 => ok (rdG 48) s1 (fun a s2 =>
      ok (loadScalar false (a + 0x20000) 4) s2 (fun v s3 => ok (wrG 10 (BitVec.ofNat 64 v)) s3 (fun _ s4 => gReg s4.cx 10 == 0xB8000007)))) = true := by
  decide +kernel
theorem witness_Stores_s : let s := st [(9, 0x7C), (10, 0x12345678)]
    Running s ∧ OnM s (mw 10 9 0) ∧ IsReg s 10 ∧ IsReg s 9 ∧
      ok (xlAny true (reg s 9 + offOf (mw 10 9 0) 4) .wr 4 true) s (fun x s1 => decide (x.t ≠ 3 ∧ s1.cx = s.cx ∧
        isTs s1 s1.cx = false ∧ s1.cx.posted = [] ∧ s1.cx.committing = false ∧ x.loc % 64 + 4 ≤ 64 ∧ ownUsed s1 s1.cur < 16)) = true := by
  decide +kernel
theorem witness_Stores_any : let s := sup [(9, 0x20000), (10, 7)]
    Running s ∧ ok (rdG 10) s (fun t s1 => ok (rdG 9) s1 (fun a s2 => ok (xlAny false a .wr 8 true) s2 (fun x s3 => decide (x.t ≠ 3) &&
      ok (storeBytes x.va x.loc (bytesOfNat 8 t.toNat) none x.o) s3 (fun _ s4 => ownByte s4.cx x.loc == some 7)))) = true := by
  decide +kernel
/-- DOMCFG0 is read and written through its page. -/
theorem witness_DeviceRegisterAccess : let s := supd [(9, 2 ^ 42 + 0x100400), (10, 0x3F01)]
    Running s ∧ OnM s (mw 10 9 0) ∧ IsReg s 10 ∧ IsReg s 9 ∧
      ok (xlAny false (reg s 9 + offOf (mw 10 9 0) 8) .rd 8 true) s (fun x s1 => decide (Free s1 ∧ s1.cx = s.cx ∧ x.t = 3)) = true ∧
      ok (xlAny false (reg s 9 + offOf (mw 10 9 0) 8) .wr 8 true) s (fun x s1 => decide (Free s1 ∧ s1.cx = s.cx ∧ x.t = 3 ∧
        x.pa % 2 ^ 32 = 0x100400) &&
        (regWrite { s1 with cx := exposedCtx s1.cx } 0x100400 8 0x3F01).toOption.isSome &&
        (regWrite (retire { s1 with cx := exposedCtx s1.cx } (after s 4)) 0x100400 8 0x3F01).toOption.isSome) = true ∧
      0x100400 % 8 = 0 ∧ regView s 0x100400 < 2 ^ 64 := by decide +kernel
theorem witness_VectorMemory_lines : let s := stv [(4, [1, 2, 3])]
    let o := rr 3 9 4
    Running s ∧ okXimm o.x = true ∧ govern s o.p o.x.neg ≠ 0 ∧ IsReg s o.a ∧ IsVec o.d ∧ IsVec o.b ∧
      ok (xlAny true (reg s o.a + ximmOf o.x 64) .rd 64 false) s (fun x s1 => decide (x.c = false ∧ x.loc % 64 = 0 ∧ x.loc < peerBase ∧ Quiet s x.loc 64) &&
        ok (loadLanes x (reg s o.a + ximmOf o.x 64) 0xFFFF 16 []) s1 (fun l _ => l.length == 16)) = true ∧
      ok (xlAny true (reg s o.a + ximmOf o.x 64) .wr 64 false) s (fun x s1 =>
        ok (storeLanes x 0xFFFF (getD s.cx.v 0 4)) s1 (fun _ s2 => ownByte s2.cx 0x1004 == some 2)) = true ∧
      ok (xlAny true (reg s o.a + ximmOf o.x 64) .rw 64 false) s (fun x s1 =>
        ok (loadLanes x (reg s o.a + ximmOf o.x 64) 0xFFFF 16 []) s1 (fun _ s2 => ok (storeLanes x 0xFFFF (getD s.cx.v 0 4)) s2
          (fun _ _ => true))) = true := by decide +kernel
theorem witness_VectorMemory_gather : let s := stv [(4, [1, 2, 0xFFFFFFFF])]
    let o := rr 3 9 4
    Running s ∧ Plain o ∧ govern s o.p o.x.neg ≠ 0 ∧ IsReg s o.a ∧ IsVec o.d ∧ IsVec o.b ∧
      ok ((range' 0 16).mapM (fun i => (if (govern s o.p o.x.neg).getLsbD i then atLane i (do
         let ea := reg s o.a + (lane (getD s.cx.v 0 o.b.toNat) i).signExtend 64 * 4
         let x ← xlAny true ea .rd 4 false
         let bs ← loadBytes x 4 ea
         pure (BitVec.ofNat 32 (natOfBytes bs))) else pure 0 : Act W32))) s (fun l _ => l.length == 16) = true ∧
      ok ((range' 0 16).forM (fun i => if (govern s o.p o.x.neg).getLsbD i then atLane i (do
         let ea := reg s o.a + (lane (getD s.cx.v 0 o.b.toNat) i).signExtend 64 * 4
         let x ← xlAny true ea .wr 4 false
         storeBytes x.va x.loc (bytesOfNat 4 (lane (getD s.cx.v 0 o.d.toNat) i).toNat) none x.o) else pure ())) s
        (fun _ _ => true) = true := by decide +kernel
/-- A block of 128 FP32 elements with room for 4 and one value, at S-address 0x1000. -/
def blockSt : State :=
  let s := stv [(4, [0x3F800000])]
  wrBytes (wrBytes (wrBytes s 0x1000 (bytesOfNat 8 (128 + 2 ^ 16 + 4 * 2 ^ 32))) 0x1010 [2]) 0x1050 (bytesOfNat 4 0x40000000)
theorem witness_BmvBlocks_ldbm : let s := blockSt
    let o := rx 3 9 0 0 0
    Running s ∧ okXimm o.x = true ∧ bmvFmt o.x.ximm.toNat = true ∧ On s o ∧ IsVec o.d ∧ IsReg s o.a ∧ IsReg s o.b ∧
    ok (loadWhole true (reg s o.a) 16) s (fun hb s1 => let h := bmvHdr hb
      decide (h.n ≠ 0 ∧ h.bad = false ∧ h.fmt = o.x.ximm.toNat ∧ h.nnz ≤ h.cap ∧ h.nnz ≤ h.n ∧
        (reg s o.b).toNat % (64 / elemSize o.x.ximm.toNat) = 0 ∧ (reg s o.b).toNat < h.n) &&
      ok (spanCheck true (reg s o.a) .rd (16 + bmvMask h.n + bmvVals h.cap 4)) s1 (fun _ s2 =>
        ok (spanLoad true (reg s o.a + 16) (bmvMask h.n)) s2 (fun mb s3 => decide (maskCount mb (8 * bmvMask h.n) = h.nnz) &&
          ok (spanLoad true (reg s o.a + BitVec.ofNat 64 (16 + bmvMask h.n + 4 * maskCount mb 0))
            (4 * (maskCount mb (min 16 h.n) - maskCount mb 0))) s3 (fun vb _ => natOfBytes vb == 0x40000000)))) = true := by
  decide +kernel
theorem witness_BmvBlocks_stbm : let s := blockSt
    let o := rx 0 9 4 0 0
    Running s ∧ okXimm o.x = true ∧ bmvFmt o.x.ximm.toNat = true ∧ On s o ∧ IsVec o.b ∧ IsReg s o.a ∧ IsReg s o.d ∧
    ok (loadWhole true (reg s o.a) 16) s (fun hb s1 => let h := bmvHdr hb
      let (els, _, m, e) := bmvScan h (getD s.cx.v 0 4) 0 4 16 0 0 [] 0
      decide (h.n ≠ 0 ∧ h.bad = false ∧ h.fmt = o.x.ximm.toNat ∧ (reg s o.d).toNat = 0 ∧ 16 < h.n ∧ e = none) &&
      ok (spanCheck true (reg s o.a) .wr (16 + bmvMask h.n + bmvVals h.cap 4)) s1 (fun _ s2 =>
        ok (els.forM (fun x => storeSpan true (reg s o.a + BitVec.ofNat 64 (16 + bmvMask h.n + 4 * x.1)) (bytesOfNat 4 x.2))) s2 (fun _ s3 =>
          ok (storeSpan true (reg s o.a + 16) (bytesOfNat 2 m)) s3 (fun _ s4 =>
            ok (storeSpan true (reg s o.a) (bytesOfNat 8 (128 + 2 ^ 16 + 4 * 2 ^ 32))) s4 (fun _ _ => true))))) = true := by
  decide +kernel
theorem witness_FullEmptyAccess_full : let s := setTag (st [(9, 0x48)]) (tagKey (st []) 0x48) true
    let o := rr 8 9 0
    Running s ∧ okXimm o.x = true ∧ On s o ∧ isTs s s.cx = false ∧ IsReg s o.a ∧ IsReg s o.d ∧ s.cx.got = none ∧
      ok (tagAccess (reg s o.a) o.x) s (fun x t => decide (t = s ∧ ownTag s x.1.loc = true ∧ ownTagChange s.cx x.1.loc = none) &&
        ok (loadBytes x.1 8 (reg s o.a + ximmOf o.x 8)) s (fun _ u => decide (u = s))) = true := by decide +kernel
theorem witness_FullEmptyAccess_empty : let s := st [(9, 0x48)]
    let o := rr 8 9 0
    Running s ∧ On s o ∧ isTs s s.cx = false ∧ IsReg s o.a ∧ IsReg s o.d ∧ s.cx.got = none ∧ cancelHits s s.cur = false ∧ s.cx.wait = none ∧
      ok (tagAccess (reg s o.a) o.x) s (fun x t => decide (t = s ∧ ownTag s x.1.loc = false ∧ ownTagChange s.cx x.1.loc = none ∧
        (nodeAt s (nodeKey x.2)).waiters.length < 16)) = true ∧
      (okXimmScp o.x = true ∧ IsReg s o.b ∧ ok (releaseAt (scopeOf o.x 4)) s (fun _ _ => true) = true) := by decide +kernel
theorem witness_Fences : let s := st []
    let o := rr 0 0 0
    Running s ∧ On s o ∧ o.x.rm = 0 ∧ scpOk o.x = true ∧ o.x.ximm = 0 ∧ o.x.ximm.getLsbD 16 = false ∧
      ok (releaseAt (scopeOf o.x 4)) s (fun _ s1 => ok (acquire (scopeOf o.x 4)) s1 (fun _ _ => true)) = true ∧
      ok (releaseAt (scopeOf o.x 4)) (rereadPorts s o.x.ximm) (fun _ s1 => ok (acquire (scopeOf o.x 4)) s1 (fun _ _ => true)) = true ∧
      isTs (drainAll s s.cur) (drainAll s s.cur).cx = false := by decide +kernel
theorem witness_CacheInstructions : let s := sup [(9, 0x20000), (10, 64)]
    let o := rr 0 9 10
    Running s ∧ On s o ∧ Plain o ∧ IsReg s o.a ∧ IsReg s o.b ∧ s.cx.mode = true ∧ Free s ∧ okXimm o.x = true ∧
      ok release s (fun _ _ => true) = true ∧ ok (prefetch (reg s o.a + ximmOf o.x 64)) s (fun _ _ => true) = true ∧
      ok (runsOf (reg s o.a) (reg s o.b)) s (fun _ t => ok release t (fun _ _ => true)) = true := by decide +kernel
theorem witness_AtomicOperations : (0 : Nat) < 2 ∧ 0xFFFF < 2 ^ (8 * 2) := by decide
theorem witness_Atomics_result : let s := st [(9, 0x48), (10, 1)]
    let o := rr 8 9 10
    Running s ∧ okAtom o.x = true ∧ o.x.ord = 0 ∧ On s o ∧ Free s ∧ isTs s s.cx = false ∧ IsReg s o.d ∧ IsReg s o.a ∧ IsReg s o.b ∧
      o.d ≠ 0 ∧ (checkObj s (reg s o.a + ximmOf o.x 8) 8 s.cx.mode).toOption = some 0x48 ∧ sPlace s 0x48 = .bank ∧ s.nodes = [] ∧
      Quiet s 0x48 8 ∧ s.cx.got = none ∧ s.cx.sb = [] ∧ s.cx.journal = [] ∧
      ((0 : BitVec 6) = 0 ∧ s.cx.posted = [] ∧ (nodeAt s (3 * siteKey 0x48)).portM.length < 16) := by decide +kernel
theorem witness_Atomics_engine : let s := sup [(9, 0x20000), (10, 1)]
    let o : OpR := { rr 8 9 10 with x := { XW.none with has := true, ord := 3 } }
    Running s ∧ okAtom o.x = true ∧ On s o ∧ ok (do
       checkG o.d
       let ex ← pure (0 : W64)
       let a ← rdG o.a
       let v ← rdG o.b
       needFrontier
       pure (ex, a, v)) s (fun r s1 => ok (atomXl .add false (r.2.1 + ximmOf o.x 8) 8) s1 (fun x s2 =>
      match atomHome s2 false x with
      | some (.engine cl) => ok (do
           markExposed
           if 2 ≤ o.x.ord.toNat then releaseAt (scopeOf o.x 4) else pure ()) s2 (fun _ s3 => ok (do
           let ts ← view (fun s => isTs s s.cx)
           if ts && x.o then ordered (x.loc / 64) true else pure ()
           upd (fun s => l1DropLine (if ts then s else publishWord s s.cur x.loc 8) (coreOf s.cur) (x.loc / 64))) s3 (fun _ s4 =>
          ok (once (performAtomic (.engine cl) .add x (r.2.1 + ximmOf o.x 8) 8 r.2.2 r.1)) s4 (fun old s5 => ok (do
           acquire (scopeOf o.x 4)
           wrG o.d old) s5 (fun _ s6 => gReg s6.cx 8 == 0xB8000007))))
      | _ => false)) = true := by decide +kernel

theorem witness_LaneInstructions : let s := stv [(3, [0x7F800001]), (4, [1])]
    let s := { s with cx := { s.cx with ports := [(0, { Port.free with bind := .pattern 0 })] } }
    Running s ∧ OkRm (rx 5 3 4 0 4).x ∧ OkNeg (rr 5 3 4).x ∧ OkScale (rx 5 3 4 1 4).x ∧ govern s 0 false ≠ 0 ∧ isV 5 = true ∧ IsVec 31 ∧
      IsVec 5 ∧ IsVec 3 ∧ IsVec 4 ∧ ok (checkV 5) s (fun _ s1 => ok (rdV 48) s1 (fun _ s2 => ok (rdV 4) s2 (fun b s3 =>
        ok (oldLanes 5 0xFFFF) s3 (fun _ s4 => ok (wrV 5 b) s4 (fun _ s5 => getD s5.cx.v 0 5 == b && (portAt s5.cx 0).eos))))) = true := by
  decide +kernel
theorem witness_LaneCompares : let s := stv [(3, [0x7F800001])]
    let s := { s with cx := { s.cx with ports := [(0, { Port.free with bind := .pattern 0 })] } }
    Running s ∧ Plain (rr 7 3 4) ∧ govern s 0 false ≠ 0 ∧ isV 3 = true ∧ isQ 3 = false ∧ isPd 7 = true ∧ isPd 0 = false ∧ isPd 8 = false ∧
      (rx 7 3 4 0 1).x.rm ≠ 0 ∧ ok (rdV 48) s (fun _ s1 => ok (rdV 4) s1 (fun _ _ => true)) = true := by decide +kernel
theorem witness_ReductionsAndScans : let s := stv [(3, [0x80000000])]
    Running s ∧ govern s 0 false ≠ 0 ∧ IsVec 31 ∧ IsVec 3 ∧ Plain (rr 31 3 0) ∧ OkRm (rx 31 3 0 0 4).x ∧ OkNeg (rr 31 3 0).x := by
  decide +kernel
theorem witness_Permutes : let s := stv [(3, [1])]
    Running s ∧ Plain (rr 5 3 4) ∧ On s (rr 8 3 9) ∧ IsReg s 8 ∧ IsVec 5 ∧ IsVec 3 ∧ IsVec 4 ∧ IsReg s 9 ∧ govern s 0 false ≠ 0 ∧
      [rx 5 3 4 0 0, rx 5 3 4 3 0, rx 5 3 4 0xF4 0, rx 5 3 0 5 0].all (fun o => okXimm o.x && decide (o.x.ximm.toNat % 16 ≤ 5 ∧
        o.x.ximm.toNat < 256 ∧ (o.x.ximm.toNat % 16 ≠ 4 → o.x.ximm.toNat < 16) ∧ (o.x.ximm.toNat % 16 = 5 → o.b = 0))) = true := by
  decide +kernel
theorem witness_Conversions : let s := stv [(3, [0x00800080])]
    Running s ∧ IsVec 3 ∧ govern s 0 false ≠ 0 ∧ IsVec 5 ∧
      [0x000, 0x750].all (fun x => decide (x < 2 ^ 11 ∧ convDst (x % 16) = true ∧ convSrc (x / 16 % 16) = true ∧
        (x / 16 % 16 ∉ [5, 8, 9] → x / 256 = 0))) = true ∧
      okS (rx 7 3 0 1 0).x = true ∧ On s (rx 7 3 0 1 0) ∧ (7 : BitVec 6).toNat < 8 ∧ okXimm (rx 5 3 7 15 0).x = true ∧
      (let o := rx 5 3 9 31 0
       okXimm o.x = true ∧ o.x.ximm.toNat < 32 ∧ IsReg s o.b ∧
        (let word (k : Nat) : Act Nat := if (range' 0 8).any (fun i => (govern s o.p o.x.neg).getLsbD (8 * k + i)) then do
            let ea := reg s o.b + BitVec.ofNat 64 (4 * ((vec s o.a).toNat / 2 ^ (16 * (2 * (o.x.ximm.toNat / 2) + k)) % 2 ^ 16 / 128 % 256))
            let x ← xlAny (o.x.ximm.getLsbD 0) ea .rd 4 false
            let bs ← loadBytes x 4 ea
            pure (natOfBytes bs)
          else pure 0
         ok (word 0) s (fun _ s1 => ok (word 1) s1 (fun _ _ => true)) = true)) := by decide +kernel
theorem witness_Rounding : decodeFp fp32 0x3F800001 = .fin false 0x800001 (-23) false ∧ (0xFFFFFFFF : Nat) < 2 ^ fp32.w ∧
    (decodeFp fp32 0xFF800001).isNan = true ∧ fp32 ≠ e4m3 := by decide +kernel

/-- A pattern of four words of S-space at 0x1000: an input, or an output. -/
def pat4 (out : Nat) : BitVec 256 := BitVec.ofNat 256 (0x1000 + 4 * 2 ^ 64 + 2 ^ 96 + 2 ^ 112 + 4 * 2 ^ 128 + out * 2 ^ 192 + 2 ^ 193)
def portSt (p : Port) : State := let s := st [(9, 0x80), (10, 3)]; { s with cx := { s.cx with ports := [(15, p)] } }
theorem witness_Streams_bind : let s := wrBytes (portSt { Port.free with bind := .pattern (pat4 0) }) 0x80 (bytesOfNat 32 (pat4 0).toNat)
    Running s ∧ Plain (rr 63 9 0) ∧ On s (rr 63 9 0) ∧ isQ 63 = true ∧ IsReg s 9 ∧ patBad (pat4 0) = false ∧
      (reg s 9).toNat % 32 = 0 ∧ (reg s 10).toNat % 32 ≠ 0 ∧
      (let u := sup [(9, 0x30000)]
       ok (loadWhole false (reg u 9) 32) u (fun bs u1 => !patBad (BitVec.ofNat 256 (natOfBytes bs)) && ok (freePort 15) u1 (fun _ _ => true))) = true ∧
      ok (freePort (portNo 63)) s (fun _ _ => true) = true ∧
      (portAt s.cx 15).bind = .pattern (pat4 0) ∧ (pat4 0).getLsbD 192 = false := by decide +kernel
/-- Endpoint 3 of core 0's site, an input and an output of FP32 tokens; port q15 is bound to it. -/
def chanSt (dir : Nat) (done : Bool) : State :=
  let key := 16 * coreSite State.reset 0 + 3
  updEndp (portSt { Port.free with bind := .channel (BitVec.ofNat 64 (3 + 16 * dir)) key, done := done }) key (fun e => { e with cfg := 1 + 2 * dir, bound := some (0, 15) })
theorem witness_Streams_channels :
    (let s := chanSt 0 false
     let s := { s with cx := setG s.cx 9 3 }
     let key := 16 * coreSite s (coreOf s.cur) + 3
     IsReg s 9 ∧ epBad s.cx 15 3 = false ∧ (endpAt s key).cfg.testBit 0 = true ∧ (endpAt s key).cfg.testBit 1 = (3 : W64).getLsbD 4 ∧
       (3 : W64).toNat / 32 % 4 = (endpAt s key).cfg / 4 % 4 ∧ (endpAt s key).bound = some (s.cur, portNo 63) ∧
       ok (freePort 15) s (fun _ _ => true) = true ∧ (portAt s.cx 15).hold = [] ∧
       (portAt s.cx 15).bind = .channel 3 key ∧ (3 : W64).getLsbD 4 = false) ∧
    (let s := chanSt 1 false
     let key := 16 * coreSite s 0 + 3
     Running s ∧ isQ 63 = true ∧ (portAt s.cx 15).bind = .channel 19 key ∧ (19 : W64).getLsbD 4 = true ∧ (portAt s.cx 15).done = false ∧
       ok (chanRoom 15 key) s (fun _ s1 => ok (emitTok 15 key { tag := 0xF, data := 0 }) s1 (fun _ _ => true)) = true) ∧
    (portAt (chanSt 1 true).cx 15).done = true ∧ (8 ≤ (15 : BitVec 6).toNat ∧ (15 : BitVec 6).toNat < 16) := by decide +kernel
theorem witness_Streams_patterns :
    (let s := portSt { Port.free with bind := .pattern (pat4 0), pos := 3 }
     isQ 63 = true ∧ (pat4 0).getLsbD 194 = false ∧ (pat4 0).getLsbD 192 = false ∧ (portAt s.cx 15).ahead = [] ∧ IsReg s 8 ∧
       (portAt s.cx 15).pos < patCount (pat4 0) ∧
       ok (patRead 15 (pat4 0) (portAt s.cx 15).pos) s (fun _ s1 => decide (s1.cx.ports = s.cx.ports)) = true ∧
       ok (peekPort 15) s (fun _ _ => true) = true) ∧
    (let s := portSt { Port.free with bind := .pattern (pat4 0), pos := 4 }
     patCount (pat4 0) ≤ (portAt s.cx 15).pos ∧ (portAt s.cx 15).bind ≠ .unbound) ∧
    (let s := portSt { Port.free with bind := .pattern (pat4 1), pos := 3 }
     (pat4 1).getLsbD 192 = true ∧ (portAt s.cx 15).pos < patCount (pat4 1) ∧ ok (do
       let y ← patXl (pat4 1) (portAt s.cx 15).pos .wr
       storeBytes y.va y.loc (bytesOfNat (patSize (pat4 1)) 7) none y.o) s (fun _ _ => true) = true) ∧
    (portAt (portSt Port.free).cx 15).bind = .unbound := by decide +kernel

/-- A timestamp task in the domain of uTask, the frontier task of it. -/
def tsSt (rs : List (Nat × Nat)) : State :=
  let s := setDev (st rs) 0x1005F8 0x3F03
  { s with live := [{ task := uTask, st := .running 0, readFrom := [], dropped := false }] }
/-- A handler table of one entry at HBM 0x30000, domains 0 and 63 enabled. -/
def withTable (s : State) : State := setDev (setDev (setDev s 0x100638 1) 0x100630 0x30000) 0x100400 0x3F01
/-- A spawn record at S-address 0x1000, which g9 names, and a timestamp in g10: VALID, KIND, domain, NX. -/
def recSt (s : State) (valid kind dom nx : Nat) : State :=
  withTable (wrBytes s 0x1000 (bytesOfNat 64 (valid + kind * 2 ^ 8 + dom * 2 ^ 10 + (nx - 1) * 2 ^ 49)))

theorem witness_Spawns : let o := rx 0 9 10 1 0
    okSScp o.x = true ∧
    (let s := recSt (st [(9, 0x1000)]) 0 0 0 1
     Running s ∧ On s o ∧ IsReg s o.a ∧ IsReg s o.b ∧ ok (readPacket true (reg s o.a)) s (fun p s1 =>
       decide (s1.cx.task = some uTask) && spawnBad s1 p false) = true) ∧
    (let s := recSt (tsSt [(9, 0x1000)]) 1 0 63 1
     let s := { s with cx := { s.cx with task := some { uTask with tid := { uTask.tid with ts := 5 } } } }
     ok (readPacket true (reg s o.a)) s (fun p s1 => !spawnBad s1 p false && isTs s1 s1.cx && pkDom p == 63 &&
       decide ((reg s o.b).toNat < 5)) = true) ∧
    (let s := recSt (tsSt [(9, 0x1000)]) 1 0 0 1
     ok (readPacket true (reg s o.a)) s (fun p s1 => !spawnBad s1 p false && isTs s1 s1.cx && pkDom p == 0 &&
       decide (uTask.dropFirst ≤ uTask.issued)) = true) ∧
    (let s := recSt (st [(9, 0x1000)]) 1 2 0 16
     ok (readPacket true (reg s o.a)) s (fun p s1 => !spawnBad s1 p true && !isTs s1 s1.cx && seqRoom s1 (pkDom p) (pkNx p * pkNy p) &&
       !spillFull s1 (cidDie s1.cur) && ok release s1 (fun _ _ => true)) = true) ∧
    (let s := recSt (tsSt [(9, 0x1000)]) 1 0 63 1
     ok (readPacket true (reg s o.a)) s (fun p s1 => !spawnBad s1 p false && isTs s1 s1.cx && pkDom p == 63 &&
       decide (uTask.tid.ts.toNat ≤ (reg s o.b).toNat) && ok release s1 (fun _ _ => true)) = true) := by decide +kernel
theorem witness_EndsOfTasks : let s := st []
    Running s ∧ On s (rr 0 0 0) ∧ s.cx.task = some uTask ∧ okScp (rr 0 0 0).x = true ∧ ¬ Crowded s ∧ (drainAll s s.cur).cx.trapNext = [] ∧
      uTask.csc ≠ 4 ∧ Plain (rr 0 0 0) ∧ s.cx.fb = 0 ∧ uTask.csc < 4 ∧ domTs s uTask.tid.dom = false ∧
      (ctxOf s s.cur).task = some uTask ∧ (ctxOf s s.cur).group = none ∧ (dev s 0x100900).testBit 0 = false := by decide +kernel
/-- A later task of uTask's domain, on a core with 16 ended tasks. -/
theorem witness_EndsOfTasks_crowded :
    let t : Task := { uTask with tid := { uTask.tid with ts := 9, seq := 9 } }
    let e : Ended := { tid := uTask.tid, cid := 0, csc := 3, sb := [], held := [], holds := [], point := none }
    let s := tsSt []
    let s := { s with ended := List.replicate 16 e, cx := { s.cx with task := some t } }
    Running s ∧ On s (rr 0 0 0) ∧ s.cx.task = some t ∧ okScp (rr 0 0 0).x = true ∧ Crowded s := by decide +kernel
theorem witness_Futures_free : let s := st [(9, 0x40), (10, 0x1000)]
    let o := rr 0 9 10
    Running s ∧ okScp o.x = true ∧ On s o ∧ Free s ∧ IsReg s o.a ∧ IsReg s o.b ∧ word8 s 0x40 % 4 = 0 ∧
      ok (object (reg s o.a) 8 true) s (fun f s1 => ok (releaseAt (scopeOf o.x 4)) s1 (fun _ s2 => (futResolve s2 f 7).toOption.isSome)) = true ∧
      ok (object (reg s o.b) 64 true) s (fun c s1 => ok (object (reg s o.a) 8 true) s1 (fun f s2 => ok (releaseAt (scopeOf o.x 4)) s2 (fun _ s3 =>
        (futRegister s3 f (c + 48) c 0).toOption.isSome))) = true := by decide +kernel
theorem witness_Futures_resolved : let s := wrBytes (wrBytes (st [(9, 0x40)]) 0x40 [2]) 0x48 [3]
    word8 s 0x40 % 4 = 2 ∧ word8 s 0x48 % 4 = 3 ∧
      ok (object (reg s 9) 8 true) s (fun f s1 => ok (releaseAt 4) s1 (fun _ s2 => decide (word8 s2 f % 4 = 2))) = true := by decide +kernel
theorem witness_Futures_join : let s := stv [(4, [0x40, 0x48])]
    let o : OpR := { rr 0 9 4 with p := 1 }
    let s := { s with cx := setP s.cx 1 3 }
    Running s ∧ okScp o.x = true ∧ govern s o.p o.x.neg = 3 ∧ Free s ∧ IsReg s o.a ∧ IsVec o.b ∧
      (joinBlock s (reg s o.a) s.cx.mode).toOption = some 0x1000 ∧ ok (releaseAt (scopeOf o.x 4)) s (fun _ s1 =>
        ok (((range' 0 16).filter (fun i => (govern s o.p o.x.neg).getLsbD i)).forM (fun m => atLane m (do
          let f ← object ((lane (vec s o.b) m).setWidth 64) 8 true
          atHome ((lane (vec s o.b) m).setWidth 64) (fun s => futRegister s f (0x1000 + 64 + 16 * m) 0x1000 1))))
          (homeWrite s1 (0x1000 + 56) (bytesOfNat 2 2 ++ [0, 0, 0, 0, 2, 0])) (fun _ _ => true)) = true := by decide +kernel
/-- A group object at 0x100 with MEMB, ARRV, PH and no CONT. -/
def groupSt (memb arrv ph : Nat) (mem : Option (Nat × Option Bool)) : State :=
  let s := wrBytes (st [(9, 0x100), (10, 1)]) 0x100 (bytesOfNat 12 (memb + arrv * 2 ^ 16 + ph * 2 ^ 32 + 0xFFFFFFFF * 2 ^ 64))
  { s with cx := { s.cx with group := mem } }
theorem witness_GroupsBarriersRings_groups : let o := rr 8 9 10
    (let s := groupSt 65534 0 0 none
     Running s ∧ On s o ∧ IsReg s o.a ∧ IsReg s o.d ∧ IsReg s o.b ∧ Plain o ∧ okScp o.x = true ∧ Free s ∧ s.cx.got = none ∧
       ok (groupObj (reg s o.a)) s (fun r s1 => decide (s1.cx.group = none ∧ r.2.1 ≠ 65535 ∧ r.2.2.2.1 ≠ (reg s o.b).getLsbD 0 ∧
         s1.cx.got = none) && ok (acquire (scopeOf o.x 4)) s1 (fun _ _ => true)) = true) ∧
    ok (groupObj (reg (groupSt 65535 0 0 none) 9)) (groupSt 65535 0 0 none) (fun r _ => decide (r.2.1 = 65535)) = true ∧
    (let s := groupSt 2 1 1 (some (0x100, none))
     ok (groupObj (reg s o.a)) s (fun r s1 => decide (s1.cx.group = some (r.1, none) ∧ r.2.2.1 + 1 = r.2.1 ∧
       r.2.2.2.1 = (reg s o.b).getLsbD 0 ∧ r.2.2.2.2 = 0xFFFFFFFF) && ok (releaseAt (scopeOf o.x 4)) s1 (fun _ _ => true)) = true) ∧
    (let s := groupSt 3 1 1 (some (0x100, some false))
     ok (groupObj (reg s o.a)) s (fun r s1 => decide (s1.cx.group = some (r.1, some false) ∧ r.2.2.1 + 1 ≠ r.2.1)) = true) := by
  decide +kernel
/-- A barrier object at 0x100 with PARR, EARR, PBYTES and PH. -/
def barSt (parr earr pb ph : Nat) : State :=
  wrBytes (st [(9, 0x100), (10, 1)]) 0x100 (bytesOfNat 16 (parr + earr * 2 ^ 16 + pb * 2 ^ 32 + ph * 2 ^ 96))
theorem witness_GroupsBarriersRings_barriers : let o := rr 8 9 10
    (let s := barSt 1 1 0 0
     Running s ∧ On s o ∧ IsReg s o.a ∧ IsReg s o.b ∧ IsReg s o.d ∧ Plain o ∧ okScp o.x = true ∧ Free s ∧ s.cx.got = none ∧
       ok (object (reg s o.a) 16 false) s (fun a _ => a == 0x100) = true ∧ (reg s o.b).toNat / 2 ^ 17 % 2 ^ 15 = 0 ∧
       (reg s o.b).toNat % 2 ^ 16 ≠ 0 ∧ 0 < (reg s o.b).toNat ∧ (reg s o.b).toNat < 2 ^ 31 ∧
       ok (object (reg s o.a) 16 true) s (fun a s1 => a == 0x100 && decide ((natOfBytes (homeRead s1 a 16).1).testBit 96 ≠
           (reg s o.b).getLsbD 0) && (barUpdate s1 a 0 1).toOption.isSome && ok (acquire (scopeOf o.x 4)) s1 (fun _ _ => true) &&
         ok (releaseAt (scopeOf o.x 4)) s1 (fun _ s2 => (barUpdate s2 a 1 0).toOption.isSome)) = true ∧
       natOfBytes (homeRead s 0x100 16).1 = 1 + 2 ^ 16 * 1 + 2 ^ 32 * 0 + 2 ^ 64 * 0 + 0) ∧
    (let s := barSt 65535 65535 (2 ^ 31 - 1) 1
     ok (object (reg s o.a) 16 true) s (fun a s1 => decide ((natOfBytes (homeRead s1 a 16).1).testBit 96 = (reg s o.b).getLsbD 0 ∧
       s1.cx.got = none)) = true ∧
       natOfBytes (homeRead s 0x100 16).1 = 65535 + 2 ^ 16 * 65535 + 2 ^ 32 * (2 ^ 31 - 1) + 2 ^ 64 * 0 + 2 ^ 96) := by decide +kernel
/-- A ring header at 0x100 with four slots of 16 bytes at 0x200, WP and RP. -/
def ringSt (wp rp : Nat) : State :=
  wrBytes (st [(9, 0x100)]) 0x100 (bytesOfNat 20 (0x200 + 2 * 2 ^ 32 + wp * 2 ^ 96 + rp * 2 ^ 128))
theorem witness_GroupsBarriersRings_rings : let o := rr 8 9 0
    (let s := ringSt 0 0xFFFFFFFF
     Running s ∧ On s o ∧ IsReg s o.a ∧ IsReg s o.d ∧ okScp o.x = true ∧ Plain o ∧ Free s ∧ ok (ringObj (reg s o.a)) s (fun r s1 =>
       decide (r.2.wp ≠ r.2.rp) && ok (acquire (scopeOf o.x 4)) s1 (fun _ _ => true)) = true) ∧
    ok (ringObj (reg (ringSt 3 3) o.a)) (ringSt 3 3) (fun r _ => decide (r.2.wp = r.2.rp)) = true := by decide +kernel

/-- The first matrix cell's site, and a base there; a graph of one site around it. -/
def mcSite : Nat := 768
def mcBase : Nat := 768 * 2 ^ 18
def oneGraph (site : Nat) : Graph :=
  { die := 0, col := site % 48, row := site / 48, w := 1, h := 1, rmk := false, elems := 1, rmask := 0, rbuf := 0, started := false
    frozen := false, freezing := none, thawing := none, super := false, lost := false }
def graphSt (s : State) (site : Nat) (g : Graph) : State := { s with fab := { s.fab with graphs := [(site * 2 ^ 18, g)] } }
/-- A configuration command on its way. -/
def cfgCmd : CfgCmd := { op := .graph, base := mcBase, pc := 0, ir := [], ident := none, super := false }
theorem witness_FabricCommands : let s := st [(9, mcBase), (10, 0)]
    let o := rr 0 9 10
    Running s ∧ Plain o ∧ On s o ∧ IsReg s o.a ∧ IsReg s o.b ∧ s.cx.task.all (fun t => t.dropFirst ≤ t.issued) = true ∧
      IsBase (reg s o.a) ∧ IsBase (reg s o.b) ∧ (reg s o.b).toNat < 2 ^ 32 ∧ isTs s s.cx = false ∧
      isTs (tsSt [(9, mcBase)]) (tsSt [(9, mcBase)]).cx = true ∧
      ok release s (fun _ s1 => (match cmdGstart s1.cur (reg s o.a) s1 with
        | .bad _ => true
        | _ => false) && (match cmdGstart s1.cur (reg s o.a) (graphSt s1 mcSite (oneGraph mcSite)) with
        | .ok _ => true
        | _ => false) && (match cmdGstart s1.cur (reg s o.a) (updCtx s1 0 (fun c => { c with cfg := [cfgCmd] })) with
        | .later => true
        | _ => false)) = true := by decide +kernel
theorem witness_FabricCommands_mxop : let s := graphSt (st [(9, mcBase), (10, 2)]) mcSite (oneGraph mcSite)
    let o := rr 0 9 10
    Running s ∧ IsBase (reg s o.a) ∧ kindAt s (siteKey (reg s o.a).toNat) = 0xA ∧ (reg s o.b).toNat % 16 ≤ 2 ∧
      (reg s o.b).toNat / 2 ^ 11 % 2 ^ 21 = 0 ∧ ok release s (fun _ s1 => cfgDone s1 s1.cur &&
        (graphAt s1 (siteKey (reg s o.a).toNat)).isSome && decide ((cellAt s1 (siteKey (reg s o.a).toNat)).cmds.length < 8)) = true := by
  decide +kernel
/-- A copy packet at S-address 0x1000: of no elements and no signal; a fibre copy that is refused. -/
def packetSt (rs : List (Nat × Nat)) (p : Nat) : State := wrBytes (st ((9, 0x1000) :: rs)) 0x1000 (bytesOfNat 64 p)
theorem witness_CopiesAndMessages_copies : let o := rx 0 9 10 1 0
    okS o.x = true ∧
    (let s := packetSt [] (1 + 2 * 2 ^ 8 + 2 ^ 30)
     Running s ∧ On s o ∧ IsReg s o.a ∧ IsReg s o.b ∧ ok (readPacket true (reg s o.a)) s (fun p s1 => !isTs s1 s1.cx &&
       ok release s1 (fun _ s2 => match cmdCpy s2.cur (s2.cx.task.map identOf) s2.cx.mode p (reg s o.a) s2 with
         | .ok _ => true
         | _ => false)) = true) ∧
    (let s := packetSt [(10, 5)] (1 + 1 * 2 ^ 8 + 13 * 2 ^ 16)
     ok (readPacket true (reg s o.a)) s (fun p s1 => cpKind p == 1 && ok release s1 (fun _ s2 =>
       match cmdCpy s2.cur (s2.cx.task.map identOf) s2.cx.mode (BitVec.ofNat 512 (p.toNat % 2 ^ 448 + 5 * 2 ^ 448)) (reg s o.a) s2 with
         | .bad _ => true
         | _ => false)) = true) := by decide +kernel
/-- A unit's AGT holds the leaves that core 0 holds. -/
def knows (s : State) (k : Nat) : State := { s with agtTlbs := put s.agtTlbs k (coreAt s 0).tlb }
/-- Copy queue 1023 with 16 slots: header at HBM 0x40000, ring at 0x50000, served by engine 0, whose AGT holds the pages. -/
def queueSt (rs : List (Nat × Nat)) (p : Nat) : State :=
  let s := sup ((9, 0x30000) :: (10, 1023) :: rs)
  let s := wrBytes (wrBytes (wrBytes s (locHbm 0x40048) (bytesOfNat 8 0x50000)) (locHbm 0x40050) [4]) (locHbm 0x30000) (bytesOfNat 64 p)
  knows (setDev (updEngine s 0 (fun g => { g with queues := [(1023, 0x40000, none)] })) 0x100300 1) 0
theorem witness_CopiesAndMessages_queue : let o := rr 8 9 10
    let s := queueSt [] (1 + 2 * 2 ^ 8 + 2 ^ 30)
    Running s ∧ okS o.x = true ∧ On s o ∧ IsReg s o.a ∧ IsReg s o.b ∧ IsReg s o.d ∧ ok (readPacket false (reg s o.a)) s (fun p s1 =>
      decide ((reg s o.b).toNat < 1024 ∧ isTs s1 s1.cx = false ∧ s1.cx.got = none) && (servedBy s1 (reg s o.b).toNat).isSome &&
      (servedBy s1 1022).isNone && (claimAsk s1 1023 none).isNone && ok release s1 (fun _ s2 => match claimSlot s2 1023 with
        | .ok (w, s3) => decide (w < 2 ^ 64) && (claimAsk { s3 with cx := { s3.cx with got := some (BitVec.ofNat 64 w) } } 1023 (some w)).isNone &&
          (match fillSlot { s3 with cx := { s3.cx with got := some (BitVec.ofNat 64 w) } } 1023 w p
            s3.cx.mode (s3.cx.task.map identOf) with
          | .done v _ => v == w
          | _ => false)
        | _ => false)) = true ∧
    (claimAsk { s with agtTlbs := [] } 1023 none).isSome = true := by decide +kernel
theorem witness_CopiesAndMessages_msend : let o := rx 0 9 10 1 0
    let s := recSt (st [(9, 0x1000), (10, 2 ^ 15)]) 1 0 0 1
    Running s ∧ okS o.x = true ∧ On s o ∧ IsReg s o.a ∧ IsReg s o.b ∧ (reg s o.b).toNat / 2 ^ 19 = 0 ∧ isTs s s.cx = false ∧
      ok (readPacket true (reg s o.a)) s (fun p s1 => decide ((reg s o.b).toNat / 4 % 2 ^ 13 < sysSize s1) && !spawnBad s1 p false &&
        ok (readPayload true (reg s o.a + 64) 1) s1 (fun pay s2 => decide ((reg s o.b).toNat / 4 % 2 ^ 13 = ownPkg s2) &&
          ok release s2 (fun _ s3 => (sendMessage s3 { pkg := 0, die := 0, packet := p, payload := pay, super := s3.cx.mode } false).toOption.isSome))) =
            true := by decide +kernel
theorem witness_NopAndEvents : let s := st [(10, 0xFFFF)]
    let e := { s with cx := { s.cx with ev := true, got := some 0 } }
    Running s ∧ On s (rr 0 0 10) ∧ Plain (rr 0 0 10) ∧ okScp (rr 0 0 0).x = true ∧ IsReg s 10 ∧ s.cx.ev = false ∧ s.cx.got = none ∧
      isTs s s.cx = false ∧ isTs (tsSt []) (tsSt []).cx = true ∧ e.cx.ev = true ∧ e.cx.got.isSome = true := by decide +kernel

/-- The current context waits. -/
def waitSt (s : State) (w : Wait) : State := { s with cx := { s.cx with wait := some w } }
theorem witness_WaitsEnd_objects :
    (Powered (waitSt (st []) (.port 15)) ∧ (ctxOf (waitSt (st []) (.port 15)) 0).wait = some (.port 15)) ∧
    (ctxOf (waitSt (st []) (.barrier 0x100 true)) 0).wait = some (.barrier 0x100 true) ∧
    (let s := waitSt (groupSt 2 1 1 none) (.group 0x100 true)
     (ctxOf s 0).wait = some (.group 0x100 true) ∧ (groupOf (seenBytes s 0 0x100 16)).isSome = true) ∧
    (let s := waitSt (ringSt 1 0) (.ring 0x100)
     (ctxOf s 0).wait = some (.ring 0x100) ∧ (ringOf (seenBytes s 0 0x100 32)).isSome = true) := by decide +kernel
theorem witness_WaitsEnd_times : let x : Pend := { f := faultAt cALIGN 6, pc := 0x20000, ir := [] }
    [Wait.tagRetry 0, .event (some 0), .idle 0, .frontier, .dropped, .deferred x, .chunk 0 0x40].all (fun w =>
      (ctxOf (waitSt (tsSt []) w) 0).wait == some w) = true ∧
    ((ctxOf (waitSt (tsSt []) .dropped) 0).task = some uTask ∧ isFront (waitSt (tsSt []) .dropped) (ctxOf (waitSt (tsSt []) .dropped) 0) = true) := by
  decide +kernel
theorem witness_WaitsEnd_readahead :
    (let s := portSt { Port.free with bind := .pattern (pat4 0), pos := 3 }
     (ctxOf s 0).task.isSome = true ∧ (portAt (ctxOf s 0) 15).bind = .pattern (pat4 0) ∧ db (pat4 0) 192 192 = 0 ∧
       (portAt (ctxOf s 0) 15).ahead.length < 2 ∧ (portAt (ctxOf s 0) 15).pos + (portAt (ctxOf s 0) 15).ahead.length < patCount (pat4 0) ∧
       ok (patRead 15 (pat4 0) 3) (focus s 0) (fun _ _ => true) = true) ∧
    (let bad : BitVec 256 := BitVec.ofNat 256 ((pat4 0).toNat + 2)
     let s := portSt { Port.free with bind := .pattern bad }
     (match patRead 15 bad 0 (focus s 0) with
      | .error (.trap _ _) _ => true
      | _ => false) = true) := by decide +kernel
theorem witness_WaitsEnd_posted :
    let r : Req := { op := some .add, loc := 0x48, size := 8, data := 1, expected := 0, cid := some 0, elem := none, arrival := 0 }
    let s := updNode (st []) 0 (fun n => { n with portM := [r] })
    let s := { s with cx := { s.cx with posted := [{ line := 1, ea := 0x48, pc := 0x20000, ir := [] }] } }
    64 * 1 < 2 ^ 32 ∧ (nodeAt s (3 * siteKey (64 * 1))).inflight = [] ∧ bankHead s (3 * siteKey (64 * 1)) false = some r ∧
      r.cid = some 0 ∧ r.loc / 64 = 1 ∧ (ctxOf (st []) 0).posted = [] := by decide +kernel
/-- uTask's record ended, with what it holds. -/
def endedSt (commit : Option Tid) (held : List Held) : State :=
  let s := tsSt []
  updDomain { s with cx := Ctx.reset, live := [{ task := uTask, st := .ended, readFrom := [], dropped := false }]
                     ended := [{ tid := uTask.tid, cid := 0, csc := 3, sb := [], held := held, holds := [], point := none }] } 63
    (fun d => { d with commit := commit })
theorem witness_CommitsAndStarts_commit :
    frontier (st []) 63 = none ∧ (domainAt (st []) 63).commit = none ∧
    (let s := endedSt none []
     Powered s ∧ frontier s 63 = some uTask.tid ∧ (s.ended.find? (fun e => e.tid = uTask.tid)).isSome = true ∧ (domainAt s 63).commit = none) ∧
    [[], [Held.sev 1]].all (fun h => let s := endedSt (some uTask.tid) h
      decide ((domainAt s 63).commit = some uTask.tid) && (s.ended.find? (fun e => e.tid = uTask.tid)).any (fun e =>
        e.held == h && e.holds == [] && !endGate s e) && (s.live.find? (fun l => l.task.tid = uTask.tid)).isSome) = true ∧
    (performHeld (endedSt (some uTask.tid) [.sev 1]) 0 uTask (.sev 1)).isSome = true := by decide +kernel
/-- A GSTART whose context has an earlier configuration command stays held. -/
theorem witness_CommitsAndStarts_held :
    let h : Held := .gstart (BitVec.ofNat 64 mcBase)
    let s := endedSt (some uTask.tid) [h]
    let s := { s with cx := { s.cx with cfg := [cfgCmd] } }
    (performHeld s 0 uTask h).isNone = true ∧ (heldStep s h).isNone = true := by decide +kernel
theorem witness_CommitsAndStarts_start : let s := sup []
    let s := { s with cx := { s.cx with starting := true } }
    Powered s ∧ (ctxOf s 0).task = some (bootTask 0) ∧ (ctxOf s 0).starting = true ∧ (ctxOf (sup []) 0).starting = false ∧
      globals (writeArgs s 0 (bootTask 0)).1 0 true = ([0, 0, 0, 0], none) ∧ (dev s 0x100740).testBit 0 = false := by decide +kernel

/-- A handler table of one entry at HBM 0x30000: the handler at 0x20000; domains 0 and 1 enabled, 1 a timestamp domain; task
areas. -/
def supTable : State :=
  let s := withTable (wrBytes (sup []) (locHbm 0x30000) (bytesOfNat 16 (0x20000 + 2 ^ 64)))
  setDev (setDev s 0x100408 0x3F03) 0x100608 1
/-- Task queue 5 of die 0, header at HBM 0x40000, ring at 0x50000 with one packet, resident without a head; its pages translated. -/
def taskQueueSt (p : Nat) : State :=
  let s := wrBytes (wrBytes (wrBytes supTable (locHbm 0x40048) (bytesOfNat 8 0x50000)) (locHbm 0x40050) [4]) (locHbm 0x50000) (bytesOfNat 64 p)
  knows (setDev (updDisp s 0 (fun d => { d with queues := [(5, { hdr := 0x40000, gto := 0, pl := 0, stg := 0, spilled := none })]
                                                resident := [{ queue := 5, head := none, emptySince := 0 }] })) 0x100600 1) (unitBase + 2 ^ 15 + 5)
theorem witness_DispatcherSteps_take :
    (let s := taskQueueSt 1
     Powered s ∧ queueDie s 5 = some 0 ∧ (look (dispAt s 0).queues 5).any (fun q => q.spilled == none) = true ∧
       (dev s 0x100600).testBit 0 = true ∧ (dispAt s 0).stopped = false ∧ (dispAt s 0).cancelled = false ∧
       ((dispAt s 0).resident.find? (fun r => r.queue = 5)).any (fun r => r.head == none) = true ∧
       takeLacks s (dispAgt 0 5) 0x40000 = none ∧ takeLacks { s with agtTlbs := [] } (dispAgt 0 5) 0x40000 = some 0x40000 ∧
       (match slotOf s (dispAgt 0 5) 0x40000 with
        | (.packet p v 0, _, _) => let u := queueUsed s (dispAgt 0 5) 0x40000
            decide (v = 1) && !launchBad u p && !tsTooLow u (pkDom p) (pkTs p) &&
            seqRoom u (pkDom p) (pkNx p * pkNy p) && (entryBy s (dispAgt 0 5) (pkHidx p)).toOption == some 0x20000
        | _ => false) = true) ∧
    (match slotOf (taskQueueSt (1 + 3 * 2 ^ 8)) (dispAgt 0 5) 0x40000 with
      | (.packet p _ _, _, _) => launchBad supTable p
      | _ => false) = true ∧
    (let s := updDomain (taskQueueSt (1 + 1 * 2 ^ 10)) 1 (fun d => { d with lastTs := some 5 })
     (match slotOf s (dispAgt 0 5) 0x40000 with
      | (.packet p v _, _, _) => decide (v = 1) && !launchBad (queueUsed s (dispAgt 0 5) 0x40000) p &&
          tsTooLow (queueUsed s (dispAgt 0 5) 0x40000) (pkDom p) (pkTs p)
      | _ => false) = true) ∧ (dev State.reset 0x100600).testBit 0 = false := by decide +kernel
/-- A head of one task in domain 0, or of a gang of 16. -/
def headSt (gang : Bool) : Head :=
  { packet := if gang then BitVec.ofNat 512 (1 + 2 * 2 ^ 8 + 15 * 2 ^ 49) else 1, entry := 0x20000, ts := 0, csc := 3, parent := none
    super := false, gang := gang, todo := if gang then (range' 0 16).map (fun i => (i, 0, BitVec.ofNat 32 i)) else [(0, 0, 0)]
    since := 0, aged := false, cursor := none, dropFirst := 0, fresh := false }
theorem witness_DispatcherSteps_select :
    (let s := updDisp (taskQueueSt 1) 0 (fun d => { d with resident := [{ queue := 5, head := some (headSt false), emptySince := 0 }] })
     (dispAt s 0).stopped = false ∧ headsOf s 0 = [(5, headSt false)] ∧ eligible s 0 5 (headSt false) = true) ∧
    (headsOf State.reset 0 = [] ∧ (dispAt (updDisp State.reset 0 (fun d => { d with stopped := true })) 0).stopped = true) ∧
    (0 / 4096 = (dispAt State.reset 0).rebalanced / 4096 ∧
      (let s := { State.reset with cycle := 4096 }; s.cycle / 4096 ≠ (dispAt s 0).rebalanced / 4096)) := by decide +kernel
/-- A gang of 16 that has waited past its queue's timeout, on a die whose cores are stopped. -/
theorem witness_DispatcherSteps_gang :
    let s := updDisp (taskQueueSt 1) 0 (fun d => { d with
      queues := [(5, { hdr := 0x40000, gto := 1, pl := 0, stg := 0, spilled := none })]
      resident := [{ queue := 5, head := some (headSt true), emptySince := 0 }] })
    let s := (range' 0 128).foldl (fun s c => updCore s c (fun x => { x with stopped := true })) { s with cycle := 2 ^ 30 }
    (lateGangs s 0).find? (fun q => q.1 = 5) = some (5, headSt true) ∧ (dispAt s 0).closed = none ∧
      eligible s 0 5 (headSt true) = false ∧ (∀ q ∈ lateGangs s 0, (headSt true).since ≤ q.2.since) := by decide +kernel
theorem witness_DispatcherSteps_cancel :
    (dispAt State.reset 0).cancelDue = false ∧
    (let s := updDisp State.reset 0 (fun d => { d with cancelDue := true })
     Powered s ∧ (dispAt s 0).cancelDue = true ∧ (dispAt s 0).resident = [] ∧ (dispAt s 0).queues = [] ∧ (dispAt s 0).spawn = [] ∧ (dispAt s 0).due = [] ∧
       (dispAt s 0).saved = [] ∧ (range' 0 1024).all (fun c => (ctxOf s c).task.isNone) = true ∧ s.ended = []) ∧
    (let s := (range' 0 4).foldl (fun s d => updDisp s d (fun x => { x with cancelled := true })) State.reset
     (dev s 0x100700).testBit 0 = false ∧ (∀ d < 4, (dispAt s d).cancelled = true ∧ (dispAt s d).cancelDue = false) ∧ jobTasks s = false) ∧
    (let s := updDisp (st []) 0 (fun x => { x with cancelled := true })
     cancelHits s 0 = true ∧ (ctxOf s 0).wait.all isStall = true ∧ jobTasks s = true) := by decide +kernel
theorem witness_DispatcherSteps_records :
    let x : Pend := { f := faultAt cALIGN 6, pc := 0x20000, ir := [] }
    freeRec State.reset 0 = none ∧
    (let s := recd (waitSt (st []) (.record x))
     (freeRec s 0).isSome = true ∧ recordWaiters s 0 = [0] ∧ (dispAt s 0).recWait = [] ∧ (ctxOf s 0).wait = some (.record x)) ∧
    (let s := updDisp (recd State.reset) 0 (fun d => { d with recWait := [(recOf cECC 3, true)] })
     (freeRec s 0).isSome = true ∧ recordWaiters s 0 = [] ∧
       (writeRec (updDisp { s with draws := s.draws + 1 } 0 (fun d => { d with recWait := [] })) 0 (recOf cECC 3)).isSome = true) ∧
    (let s := setDev (updDisp (recd supTable) 0 (fun d => { d with ftask := [1023] })) 0x100808 (BitVec.ofNat 64 (2 ^ 22))
     (dispAt s 0).ftask.contains 1023 = true ∧ frbBase s 0 = some 0 ∧ (dev s 0x100808).testBit 22 = true ∧
       (let p := faultPacket s (0 + 128 * 1023)
        domTs s (pkDom p) = false ∧ launchBad s p = false ∧ (handlerEntry s 0 (pkHidx p)).toOption.isSome = true)) := by
  decide +kernel
/-- A walk of page 2 at a table at 0x10000, whose entry is not valid, a leaf, or a pointer. -/
theorem witness_MemoryEvents_walks : let w : Walk := { page := 2, pos := some (1, 0x10000), clusters := [0], agts := [] }
    (walkerAt State.reset 0).walks = [] ∧ [0, 0xF, 0x20001].all (fun v =>
      let s := updWalker (wrBytes (sup []) (locHbm (0x10000 + 8 * vaIndex (2 ^ 16 * 2) 1)) (bytesOfNat 8 v)) 0 (fun k => { k with walks := [w] })
      decide (Powered s ∧ (walkerAt s 0).walks = [w]) &&
        (match entryOf (2 ^ 16 * w.page) 1 (natOfBytes (homeRead s (locHbm (0x10000 + 8 * vaIndex (2 ^ 16 * w.page) 1)) 8).1) with
         | .page => v == 0
         | .leaf _ => v == 0xF
         | .table _ => v == 0x20001)) = true := by decide +kernel
theorem witness_MemoryEvents_fills : (coreAt State.reset 0).ifills = [] ∧ [false, true].all (fun again =>
    let f : IFill := { va := 0x20000, line := locHbm 0x20000 / 64, again := again }
    let s := updCore (sup []) 0 (fun c => { c with ifills := [f] })
    decide ((coreAt s 0).ifills = [f]) && !(lineAt (updCore s 0 (fun c => { c with ifills := [] })) (64 * f.line)).1.bad) = true := by
  decide +kernel
theorem witness_MemoryEvents_banks :
    let w : Req := { op := none, loc := 0x40, size := 8, data := 1, expected := 0, cid := none, elem := none, arrival := 0 }
    let a : Req := { op := some .add, loc := 0x48, size := 8, data := 1, expected := 0, cid := none, elem := none, arrival := 0 }
    (let s := updNode State.reset 0 (fun n => { n with portF := [w], portM := [a] })
     bankHead s 0 true = some w ∧ bankHead s 0 false = some a ∧ a.op = some .add ∧ (nodeAt s 0).inflight = [] ∧ a.loc / 8 ≠ w.loc / 8 ∧
       poisoned s a.loc a.size = false ∧ bankHead s 3 true = none) ∧
    (let s := updNode State.reset 0 (fun n => { n with portF := [w], inflight := [({ a with loc := 0x44 }, 7)] })
     bankHead s 0 true = some w ∧ (nodeAt s 0).inflight.all (fun e => e.1.loc / 8 == w.loc / 8) = true ∧ (nodeAt s 0).inflight ≠ []) ∧
    (let s := updNode State.reset 0 (fun n => { n with portF := [w], portM := [{ a with loc := 0x40 }] })
     bankHead s 0 true = some w ∧ bankHead s 0 false = some { a with loc := 0x40 } ∧ a.arrival = w.arrival) ∧
    isBank State.reset (8 * 1) = true := by decide +kernel
theorem witness_MemoryEvents_engines :
    let a : Req := { op := some .add, loc := locHbm 0x40, size := 8, data := 1, expected := 0, cid := none, elem := none, arrival := 0 }
    let l := (lineAt State.reset (locHbm 0x40)).1
    (let s := updCluster State.reset 0 (fun c => { c with ports := [(15, [a])], lines := [l] })
     (aePick s 0).isSome = true ∧ (clusterAt s 0).fills = [] ∧ s.clusters.length = 1 ∧ (clusterAt s 0).lines.head?.map (·.line) = some l.line ∧
       (clusterAt s 0).ports.all (fun q => q.2.head?.all (fun h => (clusterAt s 0).lines.any (fun x => x.line == h.loc / 64))) = true) ∧
    (let s := updCluster State.reset 0 (fun c => { c with fills := [7] })
     (clusterAt s 0).fills.contains 7 = true ∧ (clusterAt s 0).fills.contains 8 = false) ∧
    State.reset.clusters = [] ∧ hbmBase ≤ 64 * (hbmBase / 64) ∧ 64 * (hbmBase / 64) < hostBase ∧ hostBase ≤ 64 * (hostBase / 64) ∧ 64 * (hostBase / 64) < peerBase := by decide +kernel
theorem witness_MemoryEvents_peers :
    let s := setDev (setDev State.reset 0x100200 1) 0x100208 0
    exposed s 0xFFF8 8 = true ∧ exposed s 0xFFF9 8 = false ∧ exposed s 0x40 64 = true ∧ poisoned s (locHbm 0xFFF8) 8 = false ∧
      (0xFFF8 + 8 ≤ 2 ^ 39 ∧ 64 + 0x40 % 64 ≤ 64) := by decide +kernel

/-- A copy of a packet on engine 0, started. -/
def copySt (s : State) (p : Nat) : State := ((acceptCopy s 0 (BitVec.ofNat 512 p) none true none (some 0)).toOption).getD s
def copyOf (s : State) : Copy := ((engineAt s 0).copies.head?).getD
  { id := 9, queue := none, packet := 0, super := false, ident := none, cid := none, filt := 0, started := false, phase := .pos, next := 0
    wnext := 0, got := [], wr := [], p0 := 0, prev := 0, prevW := 0, bytes := 0, segs := [], issued := false, pend := false
    faulted := none, retryAt := 0, badPage := none, rsv := none, point := none, abandoned := false }
theorem witness_CopyEvents_queues :
    nextQueue State.reset 0 = none ∧
    (let s := wrBytes (queueSt [] 0) (locHbm 0x50000) (bytesOfNat 64 (1 + 2 * 2 ^ 8 + 2 ^ 30))
     Powered s ∧ queueAsk s 0 1023 = none ∧ (queueAsk { s with agtTlbs := [] } 0 1023).isSome = true ∧
       nextQueue s 0 = some (1023, 0x40000) ∧ (match slotOf s (queueAgt 0) 0x40000 with
       | (.packet p 1 r, sl, hd) => r == 0 &&
          (acceptCopy (takeSlot (queueUsed s (queueAgt 0) 0x40000) sl hd r) 0 p (some (1023, r)) false none none).toOption.isSome
       | _ => false) = true ∧ (queueUsed s (queueAgt 0) 0x40000).authors = []) ∧
    (let s := wrBytes (queueSt [] 0) (locHbm 0x50000) (bytesOfNat 64 (2 + 3 * 2 ^ 8))
     (match slotOf s (queueAgt 0) 0x40000 with
       | (.packet p v r, sl, hd) => v != 1 && (acceptCopy (takeSlot (queueUsed s (queueAgt 0) 0x40000) sl hd r) 0 (p &&& ~~~3 ||| 1) (some (1023, r)) false none none).toOption.isNone
       | _ => false) = true) ∧
    (let s := wrBytes (queueSt [] 0) (locHbm 0x40000) [1]
     (queueView s (queueAgt 0) 0x40000).any (fun x => decide (x.2.1 < x.1) && x.2.2.1 && !(rdHome s (x.2.2.2 + 17) 1).testBit 0) = true) := by decide +kernel
/-- A dense copy of four bytes in S-space, from 0x100: to 0x200, and to no storage, where it faults; a fenced one has not started; a
write on its way. -/
theorem witness_CopyEvents_transfer :
    [(0x200, true), (0xFFFFFF00, false)].all (fun x =>
      let s := copySt State.reset (1 + 3 * 2 ^ 10 + 2 ^ 30 + 0x100 * 2 ^ 64 + x.1 * 2 ^ 128 + 4 * 2 ^ 192 + 2 ^ 224 + 2 ^ 240)
      let c := copyOf s
      decide (copyAt s 0 c.id = some c ∧ c.started = true ∧ c.issued = false ∧ c.wr = [] ∧ c.faulted = none ∧ c.abandoned = false ∧
        (dev s 0x100900).testBit 0 = false ∧ c.next < (layOf c).total ∧ cpSsp c.packet = true) &&
      (match readRun 0 (layOf c) false (readLen { c with point := none } (layOf c) 127 c.next) { s with draws := s.draws + 1 }
          { c with point := none } with
       | (s2, c2, .done) => (match writeRun 0 (layOf c) false false (c2.got.length + 1) s2 c2 with
          | (_, _, .done) => x.2
          | (_, _, .fault _) => !x.2
          | _ => false)
       | _ => false)) = true ∧
    (let s := copySt State.reset (1 + 2 * 2 ^ 8 + 2 ^ 14 + 2 ^ 30)
     (copyOf s).started = false ∧ fenceFree s (copyOf s) = true) ∧
    (let w : CopyWr := { lo := 0, hi := 4, runs := [(0x200, [1, 2, 3, 4], false)] }
     let s := updCopy (copySt State.reset (1 + 2 * 2 ^ 8 + 2 ^ 30)) 0 0 (fun c => { c with issued := true, wr := [w] })
     (copyOf s).issued = true ∧ (copyOf s).wr = [w] ∧ wrHeld { s with draws := s.draws + 1 } w = false ∧ wrHome w < 2 ^ 22) := by
  decide +kernel
/-- A copy of 64 KiB + 4 bytes that has written its first segment, to the barrier at 0x100; one that signals a future, and one
that signals at no object; a ring's record on its way, and a full ring. -/
theorem witness_CopyEvents_signals :
    let fin (c : Copy) : Copy := { c with issued := true }
    (let s := updCopy (copySt (barSt 1 1 65540 0) (1 + 2 ^ 24 + 0x100 * 2 ^ 32)) 0 0 (fun c => { c with
        packet := c.packet ||| BitVec.ofNat 512 (2 ^ 8), bytes := 65540 })
     let c := copyOf s
     cpKind c.packet = 1 ∧ cpNosig c.packet = false ∧ (segsLeft c) = [0, 1] ∧ segAcked c 0 = true ∧ signalGate s c = false ∧
       (target s c 16 16).toOption = some 0x100 ∧ (barUpdate (portTurn s false 0x100) 0x100 0 (-(segBytes c 0 : Int))).toOption.isSome = true) ∧
    (let s := updCopy (copySt (st []) (1 + 2 * 2 ^ 8 + 2 * 2 ^ 24 + 0x40 * 2 ^ 32)) 0 0 fin
     (copyOf s).written = true ∧ (match signal s (copyOf s) 0 with
      | .sent _ c1 => c1.rsv.isNone
      | _ => false) = true) ∧
    (let s := updCopy (copySt (st []) (1 + 2 * 2 ^ 8 + 2 * 2 ^ 24 + 0xFFFFFF00 * 2 ^ 32)) 0 0 fin
     (match signal s (copyOf s) 0 with
      | .bad _ _ _ _ => true
      | _ => false) = true) ∧
    (let s := wrBytes (updCopy (copySt (ringSt 0 0) (1 + 2 * 2 ^ 8 + 0x100 * 2 ^ 32)) 0 0 fin) 0x104 [2, 0]
     (match signal s (copyOf s) 0 with
      | .sent _ c1 => c1.rsv.isSome
      | _ => false) = true) ∧
    (let s := wrBytes (updCopy (copySt (ringSt 4 0) (1 + 2 * 2 ^ 8 + 0x100 * 2 ^ 32)) 0 0 fin) 0x108 [4]
     (match signal s (copyOf s) 0 with
      | .full => true
      | _ => false) = true) := by decide +kernel
theorem witness_CopyEvents_acks :
    (let s := updCopy (copySt (ringSt 2 0) (1 + 2 * 2 ^ 8 + 0x100 * 2 ^ 32)) 0 0 (fun c => { c with rsv := some (0x100, 2#32) })
     s.engines.length = 1 ∧ (engineAt s 0).copies.length = 1 ∧ (copyOf s).rsv = some (0x100, BitVec.ofNat 32 2) ∧
       rdNat s (0x100 + 12) 4 = 2 % 2 ^ 32) ∧
    sPlace State.reset 0x100 = .bank ∧
    (let t : CtlTok := { tgt := 0x100, tks := true, val := 0, super := true }
     (checkObj State.reset (BitVec.ofNat 64 t.tgt) 64 t.super).toOption = some 0x100) ∧
    (endpointToken State.reset mcBase).toOption.isSome = true := by decide +kernel

/-- A package of a ring of eight in X, at place 3, with PKGID valid. -/
def ringPkg (s : State) : State := setDev s 0x100A10 (BitVec.ofNat 64 (3 + 7 * 2 ^ 13 + 2 ^ 26))
theorem witness_DeviceRegisterEvents_registers : let s := State.reset
    Powered s ∧ (regAssigned 0x1005F8 = true ∧ 0x1005F8 % 8 = 0 ∧ (regWrite s 0x1005F8 8 0x3F01).toOption.isSome = true) ∧
      regAssigned 0x100FF8 = false ∧ (63 < 64 ∧ 3 < 4 ∧ 11 < 12) ∧ (0xFFF : W64).toNat / 2 ^ 12 = 0 ∧ (0x1000 : W64).toNat / 2 ^ 12 ≠ 0 ∧
      (dev s 0x100900).testBit 0 = false ∧ (0x3FFFFFF : W64).getLsbD 26 = false ∧
      nextHas (exec (.pkgidWrite 0x3FFFFFF) s) (fun t => dev t 0x100A10 == 0x3FFFFFF && !linkUp t 11) = true := by decide +kernel
theorem witness_DeviceRegisterEvents_hsem : let s := setDev State.reset 0x100A00 0x20001
    (0x20000 : W32).toNat ≠ dev s 0x100A00 % 2 ^ 32 ∧ (2 ≤ (3 : W32).toNat % 4 ∧ (1 : W32).toNat % 2 = 1 ∧ (2 : W32).toNat % 4 ≠ 0) ∧
      (0x20001 : W32).toNat = dev s 0x100A00 % 2 ^ 32 ∧ (1 : W32).toNat % 4 = 1 ∧ (2 : W32).toNat % 4 = 2 ∧ (0x20001 : W32).toNat % 4 ≠ 0 ∧ (0x30000 : W32).toNat % 4 = 0 := by decide +kernel
/-- BOOT with ADDR 0x40000 and memory trained; the packet there launches handler 0 in domain 0. -/
theorem witness_DeviceRegisterEvents_boot :
    (dev State.reset 0x100A18).testBit 1 = false ∧
    (let s := setDev (wrBytes supTable (locHbm 0x40000) [1]) 0x100A18 (BitVec.ofNat 64 (0x40000 + 2))
     (dev s 0x100A18).testBit 1 = true ∧ (dev s 0x100608).testBit 0 = true ∧
       (match agtXl s 0 (hdrVa (bits (dev s 0x100A18) 56 6)) .rd 64 64 true with
        | .ok x => let p := packetOf (homeRead s x.loc 64).1 ||| 0x3F0000#512
                   decide (poisoned s x.loc 64 = false ∧ pk p 7 0 = 1 ∧ launchBad s p = false ∧ pk p 9 8 = 0 ∧ domTs s (pkDom p) = false) &&
                     (handlerEntry s 0 (pkHidx p)).toOption.isSome
        | _ => false) = true) := by decide +kernel
theorem witness_DeviceRegisterEvents_power : let s := State.reset
    jobRunning s = false ∧ 10 * (dev s 0x100A20 / 16 % 4096) < 2401 ∧ 20 * 2280 ≤ 19 * (10 * (dev s 0x100A20 / 16 % 4096)) ∧
      jobRunning (st []) = true ∧ (19 * (10 * (dev s 0x100A20 / 16 % 4096)) < 20 * 2281 ∧ 2400 ≤ 10 * (dev s 0x100A20 / 16 % 4096)) := by decide +kernel
/-- Records 0 of kind 1 and 1023 of kind 2 are BUSY. -/
def busyRecs : State := wrBytes (wrBytes (recd State.reset) 2 [1, 0x80]) (128 * 1023 + 2) [2, 0x80]
theorem witness_UnitAndJobEvents : let s := busyRecs
    Powered s ∧ recState s 0 0 = some 1 ∧ recState s 0 1023 = some 2 ∧ recState s 0 1 = none ∧ frbBase s 0 = some 0 ∧
      siteKind s 0 768 ≠ 0xE ∧ siteKind s 0 1440 = 0xE ∧ graphAt s (2304 * 0 + 768) = none ∧ graphAt s (2304 * 0 + 1440) = none ∧
      (graphAt (graphSt s mcSite (oneGraph mcSite)) (2304 * 0 + 768)).isSome = true ∧ siteRank s 0 0xE 1440 = 0 ∧
      look s.host.saved (bits (dev s 0x100880) 38 12) = none := by decide +kernel
/-- A job that was saved at area 0. -/
theorem witness_UnitAndJobEvents_restore : nextHas (exec .jctlSave State.reset) (fun t =>
    (look t.host.saved (bits (dev t 0x100880) 38 12)).any (fun p => p.disp.all (fun d => d.2.saved == []) &&
      p.dev.all (fun r => r.1 != 0x100300 && r.1 != 0x100600))) = true := by decide +kernel

/-! Element contexts: a site, its CTL (EN with a depth), other fields, a parameter block, a run state and the heads of its
inputs; its outputs are not connected. -/
def tk (tag : BitVec 4) (d : Nat) : Token := { tag := tag, data := BitVec.ofNat 32 d }
def elSt (site ctlv : Nat) (fs : List (Nat × Nat)) (block : Nat) (run : Run) (ins : List (List Token)) : State :=
  updElem State.reset (4 * site) (fun e => { e with
    fields := (1, ctlv) :: fs, block := bytesOfNat 64 block, run := run
    ins := (range' 0 ins.length).map (fun i => (i, ins.getD i [])) })
/-- What Fires, IsHead and Room ask, as one test. -/
def canFire (s : State) (kind site : Nat) (heads : List (Nat × Nat × Token)) : Bool :=
  let k := 4 * site
  decide (Fires s kind k) && heads.all (fun h => decide (IsHead s k h.1 h.2.1 h.2.2)) && decide (Room s k [0, 1, 2])
/-- A VRD of FP32 with a token on I0. -/
def vrdSt (t : Token) : State := elSt 2016 1 [] 0 .idle [[t]]
theorem witness_ElementsFire :
    (let s := vrdSt (tk tREF 0xFFFFFFFF)
     Powered s ∧ Fires s 7 8064 ∧ (match vrdStep 8064 s with
       | .ok _ _ => true
       | _ => false) = true ∧ kindAt s (8064 / 4) ≠ 1 ∧ arbiter s (8068 / 4) ≠ some 8068) ∧
    (let s := vrdSt (tk tCOORD 0)
     Fires s 7 8064 ∧ (match vrdStep 8064 s with
       | .error (.fault c _ _ _) _ => c != cBMV
       | _ => false) = true) := by decide +kernel
theorem witness_ElementsFire_others :
    (let s := updElem (elSt 1728 1 [] 0 .idle []) 6912 (fun e => { e with skip := [(0, 5)] })
     elemReady s 6912 = true ∧ (match skipStep 6912 s with
       | .ok _ _ => true
       | _ => false) = true) ∧ elemReady State.reset 6912 = false ∧ (elemAt State.reset 6912).ended = false ∧
    (let s := updElem (elSt 1952 1 [] 0 .idle []) 7808 (fun e => { e with ended := true })
     (elemAt s 7808).ended = true ∧ (elemAt s 7808).frozen = false ∧ (nodeAt s (3 * (7808 / 4))).portF = [] ∧
       awayDue s (elemAt s 7808).away = false ∧ (dev s 0x100900).testBit 0 = false ∧ (match periodSignal s 7808 with
        | .ok _ => true
        | _ => false) = true) ∧
    (let s := { vrdSt (tk tREF 0) with cycle := 256 }
     State.reset.cycle < getD State.reset.fab.period 0 2016 + 256 ∧ getD s.fab.period 0 2016 + 256 ≤ s.cycle ∧
       (range' (4 * 2016) 4).filter (fun j => (fld s j 1).testBit 0) = [8064]) := by decide +kernel
theorem witness_ElementTokens_scan :
    let s := elSt 1568 1 [] 8 (.scn true (some { ref := 0, p := 7, e := 8, rank := 0 }) false) []
    canFire s 1 1568 [] = true ∧ scnOf (elemAt s 6272).run = (true, some { ref := 0, p := 7, e := 8, rank := 0 }, false) ∧
      blk (elemAt s 6272) 16 1 % 4 = 0 ∧ (ctl s 6272).testBit 1 = false := by decide +kernel
theorem witness_ElementTokens_two : [1728, 1808].all (fun site =>
    let kind := if site = 1728 then 2 else 3
    let eq := elSt site 1 [] 0 .idle [[tk tCOORD 5], [tk tREF 1], [tk tCOORD 5], [tk tREF 2]]
    let lt := elSt site 1 [] 0 .idle [[tk tCOORD 4], [tk tREF 1], [tk tCOORD 5], [tk tREF 2]]
    canFire eq kind site [(0, 1, tk tCOORD 5), (1, 1, tk tREF 1), (2, 1, tk tCOORD 5), (3, 1, tk tREF 2)] &&
      canFire lt kind site [(0, 1, tk tCOORD 4), (1, 1, tk tREF 1), (2, 1, tk tCOORD 5), (3, 1, tk tREF 2)] &&
      decide (idep eq (4 * site) = 1 ∧ twoOf (elemAt eq (4 * site)).run = (false, none, none) ∧ (ctl eq (4 * site)).testBit 1 = false ∧
        (fld lt (4 * site) 0x12).testBit 0 = false)) = true := by decide +kernel
theorem witness_ElementTokens_sums :
    (let s := elSt 1848 1 [] 0 (.rpt (some (tk tREF 9)) [] false 0 0 false) [[], [tk tCOORD 0]]
     canFire s 4 1848 [(1, 2, tk tCOORD 0)] = true ∧ (fld s 7392 0x12).testBit 0 = false ∧
       rptOf (elemAt s 7392).run = (some (tk tREF 9), [], false, 0, 0, false)) ∧
    [Run.idle, .red 0xFFFFFFFF true].all (fun r => let s := elSt 1896 1 [] (12 * 2 ^ 40) r [[tk tVAL 1]]
      canFire s 5 1896 [(0, 1, tk tVAL 1)] && decide ((elemAt s 7584).run = r ∧ blk (elemAt s 7584) 5 1 % 16 = 0xC ∧
        blk (elemAt s 7584) 4 1 % 4 = 0 ∧ isW2 s 7584 0 = false)) = true ∧
    (let s := elSt 2096 1 [] (0xCC * 2 ^ 40) .idle [[tk tVAL 1], [tk tVAL 2]]
     canFire s 8 2096 [(0, 1, tk tVAL 1), (1, 1, tk tVAL 2)] = true ∧ isW2 s 8384 0 = false ∧ blk (elemAt s 8384) 4 1 % 32 = 0 ∧
       blk (elemAt s 8384) 5 1 = 0xCC) := by decide +kernel
theorem witness_ElementTokens_values :
    (let s := elSt 1952 1 [] (0x1000 * 2 ^ 64 + 16 * 2 ^ 96 + 2 * 2 ^ 144) (.lwr 0 0 true []) [[tk tCOORD 15], [tk tVAL 7]]
     canFire s 6 1952 [(0, 1, tk tCOORD 15), (1, 1, tk tVAL 7)] = true ∧ (elemAt s 7808).run = .lwr 0 0 true [] ∧
       blk (elemAt s 7808) 18 1 % 8 = 2 ∧ 15 < blk (elemAt s 7808) 12 4 ∧ portCheck s 7808 (0x1000 + 4 * 15) 4 = none) ∧
    canFire (vrdSt (tk tREF 0xFFFFFFFF)) 7 2016 [(0, 1, tk tREF 0xFFFFFFFF)] = true ∧
    [Run.idle, .row 0 0 0 none].all (fun r => let s := elSt 2128 1 [] (2 ^ 96) r [[tk tVAL 0x3F800000]]
      canFire s 9 2128 [(0, 1, tk tVAL 0x3F800000)] && decide ((elemAt s 8512).run = r ∧ blk (elemAt s 8512) 14 1 % 2 = 0 ∧
        isW2 s 8512 0 = false ∧ blk (elemAt s 8512) 0 4 = 0)) = true := by decide +kernel
theorem witness_ElementTokens_memory :
    (let s := elSt 0 1 [] 0x1000 .idle [[tk tCOORD 0xFFFFFFFF]]
     canFire s 0xB 0 [(0, 1, tk tCOORD 0xFFFFFFFF)] = true ∧ mopMode s 0 = 0 ∧ mopOrdered s 0 = false) ∧
    (let s := elSt 0 1 [(0x12, 1)] 0x1000 .idle [[tk tCOORD 0xFBFF], [tk tVAL 7]]
     canFire s 0xB 0 [(0, 1, tk tCOORD 0xFBFF), (1, 1, tk tVAL 7)] = true ∧ mopMode s 0 = 1 ∧ mopOrdered s 0 = false ∧ isW2 s 0 1 = false ∧
       (let sz := elemSize (mopFmt (elemAt s 0))
        let a := blk (elemAt s 0) 0 4 + 0xFBFF * sz
        a / 2 ^ 18 = blk (elemAt s 0) 0 4 / 2 ^ 18 ∧ (a + sz - 1) / 2 ^ 18 = a / 2 ^ 18 ∧ portCheck s 0 a sz = none ∧
          (nodeAt s (3 * siteKey a)).portF.length < 16)) ∧
    [Run.idle, .join 0 []].all (fun r => let s := elSt 2256 1 [(0x12, 2 * 2 ^ 5), (0x13, 1)] 0 r [[], [tk tCOORD 3]]
      canFire s 0xC 2256 [(1, 1, tk tCOORD 3)] && decide (bits (fld s 9024 0x12) 7 5 ≠ 0 ∧ fld s 9024 0x12 % 4 = 0 ∧
        joinNext (fld s 9024 0x13) 2 [] 2 0 = some 0 ∧ bits (fld s 9024 0x13) 1 0 = 1)) = true := by decide +kernel

/-- The first matrix cell, enabled, with buffers 0 of both nodes full; its fields, block and cell state. -/
def mcSt (fs : List (Nat × Nat)) (block : Nat) (f : Cell → Cell) : State :=
  updCell (elSt mcSite 1 fs block .idle []) mcSite (fun c => f { c with tags := [(0, true), (8, true)] })
def chunk0 : Chunk := { zb := false, a := 0, b := 0, cmd := none }
theorem witness_MatrixEvents_begin :
    (let s := mcSt [] 0 id
     Powered s ∧ cellReady s mcSite = true ∧ (cellCfg s mcSite).manf = false ∧ (beginChunk s mcSite chunk0).isSome = true ∧
       (cellAt s mcSite).busy = none ∧ tagFull s (.buffer mcSite 0 0) = true ∧ tagFull s (.buffer mcSite 1 0) = true ∧
       ((cellAt s mcSite).tag false = .empty ∧ (cellAt s mcSite).c = 0) ∧ (cellCfg s mcSite).bmen = false ∧ (cellCfg s mcSite).bcode = false ∧
       poisoned s (bufBase s mcSite 0 0) (cellCfg s mcSite).bytesA = false ∧ poisoned s (bufBase s mcSite 1 0) (cellCfg s mcSite).bytesB = false ∧
       look (cellAt s mcSite).taint 0 ≠ some .poison ∧ look (cellAt s mcSite).taint 8 ≠ some .poison ∧
       (matOp s mcSite chunk0).arrays = []) ∧
    (let s := mcSt [] 0 (fun c => { c with tags := [] })
     cellReady s mcSite = true ∧ (beginChunk s mcSite chunk0).isNone = true) ∧
    (let s := mcSt [] 0 (fun c => { c with tagA := .live, c := 1 })
     (cellAt s mcSite).tag false = .live ∧ 0 < (cellAt s mcSite).c) ∧ cellReady State.reset mcSite = false ∧
    (cellCfg (mcSt [(0x16, 0x20)] 0 id) mcSite).manf = true := by decide +kernel
/-- A coded tile of one band of 256 rows of FP4: its index entry at 0x2000, one frequency of 4096, its end at 528. Its lanes' states
are 2^16,
or one is 0. -/
theorem witness_MatrixEvents_decode : [true, false].all (fun good =>
    let s := mcSt [(0x15, 2 + 9 * 16 + 256), (0x13, 255)] (0x2000 * 2 ^ 288) (fun c => { c with ft := [0, 0x10] })
    let s := wrBytes (wrBytes s 0x2000 (bytesOfNat 8 (2 ^ 36))) (mcBase + 0x8000) (bytesOfNat 4 528)
    let s := wrBytes s (mcBase + 0x8010) ((List.replicate 128 [0, 0, if good then 1 else 0, 0]).flatMap id)
    decide (decodeFor s mcSite = some chunk0 ∧ cellReady s mcSite = true ∧ (cellCfg s mcSite).bcode = true ∧ (cellAt s mcSite).band = 0 ∧
      (matOp s mcSite chunk0).ready < (cellCfg s mcSite).kc ∧ (cellAt s mcSite).coded = none) &&
      (match arraysAt s (4 * mcSite) [((cellCfg s mcSite).par 36 4 + 8 * (matOp s mcSite chunk0).tileNo, 8)] with
       | (none, s1) => (match codedAt s1 (matOp s mcSite chunk0)
            (rdNat s1 ((cellCfg s mcSite).par 36 4 + 8 * (matOp s mcSite chunk0).tileNo) 8) with
         | .ok x => (cellAt (updCell s mcSite (fun c => { c with coded := some x })) mcSite).coded == some x
         | _ => false)
       | _ => false) &&
      (match codedOf s (matOp s mcSite chunk0) false with
       | .ok (x, s1) => !x.stored && (match codedBand s1 x.freqs (matOp s mcSite chunk0).baseB (x.bounds.getD 0 0) (x.bounds.getD 1 0) with
         | .ok _ => good
         | _ => !good)
       | _ => false)) = true := by decide +kernel
theorem witness_MatrixEvents_end :
    [(0, false), (1, false), (0, true)].all (fun x => let s := mcSt [(0x14, x.1)] 0 (fun c => { c with busy := some { chunk0 with zb := x.2 } })
      decide ((cellAt s mcSite).busy = some { chunk0 with zb := x.2 } ∧ (cellCfg s mcSite).kch = x.1 + 1 ∧
        (cellCfg s mcSite).kc ≤ (matOp s mcSite { chunk0 with zb := x.2 }).ready) && cellReady s mcSite) = true ∧
    [0, 4160, 4161].all (fun n => let d : Drain := { zb := false, tile := 0, next := n, bytes := 0, cmd := none }
      let s := mcSt [] 0 (fun c => { c with drain := some d })
      decide ((cellAt s mcSite).drain = some d ∧ (elemAt s (4 * mcSite)).ended = false ∧ (cellCfg s mcSite).dtgt = 0 ∧
        drainArrays (cellCfg s mcSite) d = [] ∧ Room s (4 * mcSite) [0]) && cellReady s mcSite &&
        ((drainToken s (cellCfg s mcSite) (cellAt s mcSite) d).isSome == decide (n < 4161))) = true := by decide +kernel
theorem witness_MatrixEvents_commands :
    let cmdSt (fs : List (Nat × Nat)) (opc : Nat) (t : AccTag) : State :=
      mcSt fs 0 (fun c => { c with cmds := [{ cmd := BitVec.ofNat 64 opc, super := false }], tagA := t })
    (let s := cmdSt [(0x16, 0x20)] 0 .empty
     (headCmd s mcSite 0).any (fun h => h.2 == (false, 0, 0)) = true ∧ (cellCfg s mcSite).manf = true ∧ cellReady s mcSite = true ∧ (beginChunk s mcSite
       { chunk0 with cmd := (headCmd s mcSite 0).map (·.1) }).isSome = true) ∧
    (let s := cmdSt [] 0 .empty
     (headCmd s mcSite 0).isSome = true ∧ (cellCfg s mcSite).manf = false) ∧
    (let s := cmdSt [(0x17, 4)] 1 .full
     (headCmd s mcSite 1).isSome = true ∧ cmdWorks s mcSite (some false) = false ∧ (cellCfg s mcSite).man = true ∧
       (cellAt s mcSite).tag false = .full ∧ (cellAt s mcSite).drain = none) ∧
    (let s := cmdSt [] 1 .empty
     (headCmd s mcSite 1).isSome = true ∧ (cellCfg s mcSite).man = false ∧ (cellAt s mcSite).tag false ≠ .full) ∧
    (headCmd (cmdSt [] 2 .full) mcSite 2).isSome = true ∧ cmdWorks (cmdSt [] 2 .full) mcSite none = false := by decide +kernel

/-- A context with a configuration command for the VRD site 2016, its graph of one site, and a stream at HBM 0x40000. -/
def vrdBase : Nat := 2016 * 2 ^ 18
def cfgSt (op : CfgOp) (hdr : Nat) : State :=
  let s := knows (graphSt (wrBytes (sup []) (locHbm 0x40000) (bytesOfNat 32 hdr)) 2016 { oneGraph 2016 with elems := 0 }) unitBase
  { s with cx := { s.cx with cfg := [{ cfgCmd with op := op, base := vrdBase, super := true }] } }
def cmdOf (s : State) : CfgCmd := (s.cx.cfg.head?).getD cfgCmd
theorem witness_GraphEvents_words : [(0x4000, true), (0x04004000, false)].all (fun x =>
    let s := cfgSt (.word (BitVec.ofNat 64 x.1)) 0
    decide ((ctxOf s 0).cfg = [cmdOf s] ∧ cidReads s 0 = false) && (look s.fab.graphs vrdBase).any (fun g =>
      graphIdle s vrdBase g && !wordWaits s g x.1 && ((applyWord s 0 (cmdOf s) g x.1).toOption.isSome == x.2))) = true := by decide +kernel
theorem witness_GraphEvents_streams :
    [(2 ^ 32, true), (0, false)].all (fun x => let s := cfgSt (.stream 0x40000 none 0) x.1
      decide (agtWaits s ((cmdOf s).agt 0) false 0x40000 32 = none) && (agtWaits { s with agtTlbs := [] } ((cmdOf s).agt 0) false 0x40000 32).isSome &&
      (match streamRead s ((cmdOf s).agt 0) (cmdOf s) 0x40000 32 with
       | .ok (h, s1) => h == x.1 && (openStream s1 (cmdOf s) h).toOption.isSome == x.2
       | _ => false)) = true ∧
    (let s := cfgSt (.stream 0x40000 (some (BitVec.ofNat 256 (2 ^ 32))) 0) (2 ^ 32)
     agtWaits s ((cmdOf s).agt 0) false (0x40000 + BitVec.ofNat 64 (32 + 4 * 0)) 4 = none ∧
     (look s.fab.graphs vrdBase).any (fun g => match streamRead s ((cmdOf s).agt 0) (cmdOf s) (0x40000 + BitVec.ofNat 64 (32 + 4 * 0)) 4 with
       | .ok (w, s1) => !wordWaits s1 g w && (applyWord s1 0 (cmdOf s) g w).toOption.isSome
       | _ => false) = true) ∧ db (BitVec.ofNat 256 (2 ^ 32)) 63 32 = 1 ∧
    (let s := cfgSt (.stream 0x40000 (some (BitVec.ofNat 256 (2 ^ 32))) 1) (2 ^ 32)
     cidReads s 0 = false ∧ (look s.fab.graphs vrdBase).any (fun g => enabledIn s vrdBase == g.elems) = true) := by decide +kernel
theorem witness_GraphEvents_contexts :
    (let s := updElem (elSt 2016 0 [] 0 .idle []) 8064 (fun e => { e with
        addrs := [(0x11, 0x1000)], reading := some { cid := 0, cmd := cfgCmd } })
     (elemAt s 8064).reading = some { cid := 0, cmd := cfgCmd } ∧ getD (elemAt s 8064).addrs 0 0x11 = 0x1000 ∧
       (match paramBytes s 0x1000 (blockLen (kindAt s (8064 / 4))) cfgCmd.super with
        | .ok (bs, s1) => (takeBlock s1 8064 bs cfgCmd.super).toOption.isSome
        | _ => false) = true) ∧
    (elemAt State.reset 8064).reading = none ∧ (elemAt State.reset 8064).coming = 0 ∧
    (let s := updElem State.reset 8064 (fun e => { e with coming := 1, waiting := true })
     (elemAt s 8064).coming ≠ 0 ∧ (elemAt s 8064).waiting = true) ∧
    (let s := graphSt (elSt 2016 1 [] 0 .idle []) 2016 { oneGraph 2016 with freezing := some (0, true) }
     (graphAt s (8064 / 4)).any (fun b => b.1 == vrdBase && b.2.freezing == some (0, true)) = true ∧ (elemAt s 8064).marked = false ∧
       (fld s 8064 1).testBit 0 = true ∧ kindAt s (8064 / 4) ≠ 0xA ∧ markInputs s 8064 vrdBase = [] ∧ (elemAt s 8064).outq = [] ∧
       (isSource s 8064 = true ∨ stillWorks s 8064 = false)) ∧
    [(none, none), (some (0, false), none), (none, some 0)].all (fun (x : Option (W64 × Bool) × Option W64) =>
      let s := graphSt State.reset 2016 { oneGraph 2016 with freezing := x.1, thawing := x.2 }
      (look s.fab.graphs vrdBase).any (fun g => g.freezing == x.1 && g.thawing == x.2 && g.rbuf == 0 && !g.lost)) = true := by decide +kernel
/-- Circuit 5 at IOP site 2256: a source to package 4, or a destination. -/
def circSt (dst : Bool) (f : Circuit → Circuit) : State :=
  let s := ringPkg (elSt 2256 1 [] (1 + (if dst then 5 + 2 ^ 16 + 3 * 2 ^ 32 else 5 + 4 * 2 ^ 32) * 2 ^ 128) .idle [])
  updCircuit s 5 (fun c => f { c with src := if dst then none else some 2256, dst := if dst then some 2256 else none })
theorem witness_GraphEvents_circuits :
    [[tk tVAL 1, tk tDONE 0], [tk tVAL 1]].all (fun b => let s := circSt false (fun c => { c with buf := b })
      decide ((circuitAt s 5).deliver = [] ∧ (circuitAt s 5).src = some 2256 ∧ (circuitAt s 5).buf = b ∧ (circuitAt s 5).unacked.length < 32 ∧
        b.length < 12 ∧ injectRoom s 1 = true ∧ (b.findIdx? closesPacket).isSome = decide (1 < b.length)) &&
        (iopEnd s 2256 5 false).any (fun e => decide (e.pkg ≠ ownPkg s ∧ e.pkg < sysSize s))) = true ∧
    (let s := { circSt false (fun c => { c with buf := [tk tVAL 1] }) with cycle := 32 }
     (circuitAt s 5).buf ≠ [] ∧ (circuitAt s 5).since + 32 ≤ s.cycle ∧ (circuitAt State.reset 5).buf = []) ∧
    (let s := circSt true id
     (circuitAt s 5).dst = some 2256 ∧ (iopEnd s 2256 5 true).isSome = true ∧ 31 ≠ (circuitAt s 5).expect ∧
       (circuitAt s 5).deliver = [] ∧ (circuitAt s 5).window = [] ∧ (31 + 65536 - (circuitAt s 5).expect) % 65536 < 32 ∧
       32 ≤ (32 + 65536 - (circuitAt s 5).expect) % 65536) ∧
    (let s := updElem (circSt true id) (4 * 2256) (fun e => { e with
        block := bytesOfNat 64 (1 + (5 + 2 ^ 16 + 4 * 2 ^ 32) * 2 ^ 128), ins := [(0, [tk tVAL 0, tk tVAL 0, tk tVAL 0, tk tVAL 0])] })
     (iopEnd s 2256 5 true).any (fun e => decide (e.pkg ≠ ownPkg s ∧ e.pkg < sysSize s) &&
       (let t := inject (updCircuit s 5 (fun x => { x with window := [], expect := 1, deliver := [tk tVAL 1] }))
          { packetTo s e.pkg e.die 1 with circ := some (5, 0, []) } false
        roomAt t (circuitDest t 2256 e) == 0 && (iopEnd t 2256 5 true).isSome)) = true) := by decide +kernel
/-- A message to a die of this package, with a payload for 0x1000 or none. -/
def msgOf (pay : List Byte) (v : Nat) : Message :=
  { pkg := 0, die := 0, packet := BitVec.ofNat 512 (v + 0x1000 * 2 ^ 448), payload := pay, super := true }
theorem witness_HostEvents_messages : let s := supTable
    let m := msgOf (List.replicate 64 1) 1
    Powered s ∧ m.pkg = ownPkg s ∧ (dispAt s (m.die % 4)).cancelled = false ∧ pk m.packet 7 0 = 1 ∧ launchBad s m.packet = false ∧
      pk m.packet 9 8 ≠ 2 ∧ tsTooLow s (pkDom m.packet) (pkTs m.packet) = false ∧ (handlerEntry s (m.die % 4) (pkHidx m.packet)).toOption.isSome = true ∧
      (let a := payloadAddr m.packet
       a % 64 = 0 ∧ sPlace s a = .bank ∧ siteKey a = siteKey (a + m.payload.length - 1) ∧ a + m.payload.length ≤ 2 ^ 32) ∧
      0 ≠ ownPkg (ringPkg s) := by decide +kernel
theorem witness_HostEvents_mirror :
    (dev State.reset 0x100900).testBit 0 = false ∧
    (let s := setDev { State.reset with cycle := 2 ^ 20 } 0x100900 1
     (dev s 0x100900).testBit 0 = true ∧ s.host.points = s.host.pointsDone ∧ s.host.pointAt + 2 ^ bits (regView s 0x100900) 18 14 ≤ s.cycle) ∧
    (State.reset.host.mirror = none ∧ mirrored State.reset = true) ∧ (snapOf State.reset []).live = [] := by decide +kernel
theorem witness_HostEvents_access :
    (let s := setDev State.reset 0x100A00 1
     (1 < 2 ∧ 0x100404 % 4 = 0 ∧ regAssigned 0x100404 = true ∧ 0x100404 / 8 * 8 ≠ 0x100A00) ∧ dev s 0x100A00 % 4 = 0 + 1 ∧
       (regWrite s 0x100400 8 0x3F01).toOption.isSome = true ∧ dev s 0x100A00 % 4 ≠ 1 + 1 ∧ dev s 0x100A00 / 2 ^ 32 % 2 ^ 16 ≠ 0xFFFF ∧
       regAssigned 0x100FF8 = false ∧ dev s 0x100A00 % 4 ≠ 0 + 1 + 1) ∧
    (let s := { State.reset with host := { State.reset.host with up := [(0, true)], held := [(locHbm 0 / 64, 0)] } }
     getD s.host.up false 0 = true ∧ (2 ^ 39 - 8) % 64 + 8 ≤ 64 ∧ (2 ^ 39 - 8) + 8 ≤ 2 ^ 39 ∧
       rdNat (homeRead s (locHbm 0) 8).2 (locHbm 0) 8 ≠ 1 ∧ s.host.held.find? (fun h => homeDie (64 * h.1) = homeDie (locHbm 0)) = some (locHbm 0 / 64, 0)) := by
  decide +kernel
/-- A packet held for package 4, the next one of the ring, with some credits used at the far end of port 0. -/
def pktTo (dst : Nat) : Packet :=
  { src := 3, dst := dst, die := 0, len := 16, reserved := false, msg := none, acc := none, circ := none, ret := [], par := false, e := false, tag := 0
    sdie := 0, mirror := false }
/-- A packet of this package that waits to be sent. -/
def held (id : Nat) (p : Packet) : LinkPkt := { id := id, pkt := p, dim := 0, need := 0, inp := 12, link := none, sent := 0 }
def pktSt (used : List (Nat × Nat)) : State :=
  let s := [0, 1, 2, 3].foldl (fun s p => setDev s (0x100B00 + 8 * p) (BitVec.ofNat 64 (1 + 8 * 2))) (ringPkg State.reset)
  { s with host := { s.host with pkts := [held 7 (pktTo 4)], used := used } }
theorem witness_LinksPowerAndLoader_hops : [[], [(3, 1)], [(3, 1), (4, 4)]].all (fun (u : List (Nat × Nat)) =>
    let s := pktSt u
    (s.host.pkts.find? (fun p => p.id = 7)).any (fun p => (hopOf s p).any (fun h =>
      decide (s.host.pkts.find? (fun q => (hopOf s q).map (·.2) = some h.2) = some p ∧ (∀ q ∈ s.host.pkts, (hopOf s q).map (·.2) = some h.2 → q.link = none) ∧
        p.need ≤ s.host.pointsDone ∧ p.pkt.e = false ∧ p.pkt.par = false ∧ dateline s h.2 = false ∧ h.2 = 1 ∧ p.inp = 12 ∧ p.pkt.len ≤ p.sent + 16 ∧
        p.sent + 4 < p.pkt.len ∧
        (if u = [] then getD s.host.used 0 (3 * h.2) + p.pkt.len ≤ 16
         else 16 < getD s.host.used 0 (3 * h.2) + p.pkt.len ∧ (getD s.host.used 0 (3 * h.2 + 1) < 4 ↔ u = [(3, 1)])))))) = true ∧
    (pktSt []).host.pkts.find? (fun p => p.id = 8) = none := by decide +kernel
/-- Two writes of this package to one line of package 4's memory, the first of them its to send. -/
def reqSt : State :=
  let s := pktSt []
  let p : Packet := { pktTo 4 with len := 1, acc := some { off := 64, len := 8, kind := 1, data := 1, expected := 0 } }
  { s with host := { s.host with pkts := [held 7 p, held 8 p] } }
theorem witness_LinksPowerAndLoader_requests : let s := reqSt
    (match s.host.pkts with
     | p :: q :: _ => ownReq s p.pkt && (hopOf s p).any (fun h => decide (getD s.host.used 0 (3 * h.2) + p.pkt.len ≤ 16)) &&
         reqHeld s q && q.link == none && !reqHeld s p
     | _ => false) = true ∧
    (let t := { s with host := { s.host with pkts := [held 7 (pktTo 4), held 8 (pktTo 4)] } }
     (t.host.pkts.find? (fun p => p.id = 8)).any (outside t) = true) ∧ (pktTo 3).msg = none ∧ (pktTo 3).circ = none ∧ (pktTo 3).acc = none := by decide +kernel
/-- The second write waits for the response of the first, whose tag is 0 (R423). -/
theorem test_peer_writes_one_at_a_time :
    nextHas (exec (.packetHop 7) reqSt) (fun s => s.host.left.length == 1 && s.host.asked.length == 1 &&
      nextHas (exec (.packetHop 8) s) (fun t => t.host.left.length == 1) &&
      nextHas (exec (.packetArrive 3 (pktTo 3)) s) (fun t => nextHas (exec (.packetHop 8) t) (fun u => u.host.left.length == 2))) = true := by
  decide +kernel
theorem witness_LinksPowerAndLoader_arrivals : let s := setDev (pktSt []) 0x100A18 2
    Powered s ∧ linkUp s 3 = true ∧ linkUp s 11 = false ∧ sysSize s = 8 ∧ sysSize s ≤ (pktTo 8).dst ∧ (pktTo 7).dst < sysSize s ∧
      (pktTo 7).dst ≠ ownPkg s ∧ bufUsed s 3 0 + (pktTo 7).len ≤ 16 ∧ bufUsed s 3 (bufOf { pktTo 7 with e := true }) < 4 ∧ (pktTo 3).dst = ownPkg s ∧
      (pktTo 3).src < sysSize s ∧ (dev s 0x100A18).testBit 1 = true ∧ s.host.booted = false ∧ (dev (pktSt []) 0x100A18).testBit 1 = false ∧ (pktTo 3).ret = [] ∧
      bits (dev s (0x100B00 + 8 * 3)) 4 1 = 8 ∧ (dev s 0x100A10).testBit 26 = true ∧ ownPkg s < sysSize s ∧ 2 ≤ dimSize s (3 / 4) := by
  decide +kernel
/-- An object with no section, plain or MOLR; and one whose magic is wrong. -/
def objOf (magic flags : Nat) : CodeObject := { bytes := bytesOfNat 64 (magic + 2 ^ 32 + flags * 2 ^ 48 + 64 * 2 ^ 64), place := [], later := [] }
theorem witness_LinksPowerAndLoader_loader : let s := State.reset
    headerOk (objOf 0 0).bytes = false ∧ headerOk (objOf 0x4F474B41 0).bytes = true ∧ isMolr (objOf 0x4F474B41 0).bytes = false ∧
      (loadWith s (objOf 0x4F474B41 0) [] some some).toOption.isSome = true ∧
      headerOk (objOf 0x4F474B41 1).bytes = true ∧ isMolr (objOf 0x4F474B41 1).bytes = true ∧
      (loadWith s (objOf 0x4F474B41 1) [] (fun v => (look ([] : List (Nat × Nat)) v).map (· % 2304)) (embedModule s [])).toOption.isSome = true ∧
      (match loadWith s (objOf 0x4F474B41 1) [] (fun v => (look [(2, 0), (2, 1)] v).map (· % 2304)) (embedModule s [(2, 0), (2, 1)]) with
       | .error _ => true
       | _ => false) = true := by decide +kernel

/-! ## More witnesses, clause by clause -/

theorem witness_ResetValues_zero : regAssigned 0x1FFFF8 = false ∧ [0x100100, 0x100800, 0x1000B0].all (fun o => decide (regAssigned o = true → o % 8 = 0 ∧ o < 0x200000 ∧
    ¬ (0x100400 ≤ o ∧ o < 0x100600) ∧ o ∉ [0x100830, 0x100840, 0x100900, 0x100A08, 0x100A20])) = true ∧ regAssigned 0x100800 = true := by decide +kernel
theorem witness_PredicatedOffDoesNothing_forms : let s := st []
    Running s ∧ (let o : OpM := { mw 8 9 0 with p := 1 }; ¬ OnM s o) ∧
      (let o : OpR := { rr 8 9 10 with x := { XW.none with has := true, neg := true } }; o.x.neg = true) := by decide +kernel
theorem witness_PredicateInstructions_illegal : let s := st []
    Running s ∧ isPd 0 = false ∧ isPd 8 = false ∧ isP 8 = false ∧ On s (rr 8 8 0) ∧
      (let o : OpPset := { d := 0, mask := 1 }; isPd o.d = false) := by decide +kernel
theorem witness_AtomicOperations_fadd :
    [(fp32, 4, 0x7FC00001, 0x7F800000, 0xFF800000, 0x3F800000, 0), (bf16, 2, 0x7FC1, 0x7F80, 0xFF80, 0x3F80, 0)].all (fun x =>
      let (f, n, nan, inf, minf, one, nul) := x
      (decodeFp f nan).isNan && decodeFp f inf == .inf false && decodeFp f minf == .inf (!false) && !(decodeFp f one).isNan &&
      decodeFp f one != .inf (!false) && decide (minf < 2 ^ (8 * n)) && (match decodeFp f one, decodeFp f nul with
        | .fin _ m _ false, .fin _ 0 _ false => m != 0
        | _, _ => false)) = true := by decide +kernel
theorem witness_Rounding_special : (2 : Nat) ^ 31 + 2 ^ 23 ≤ 0x80800000 ∧ 0x80800000 < 0xFF800000 ∧ 0x41100000 ≤ 0xC1100000 % 2 ^ 31 ∧
    2 ^ 23 ≤ 0x397FFFFF % 2 ^ 31 ∧ (-126 : Int) ≤ 127 ∧ (1 : Nat) ≠ 0 ∧ 2 ^ 24 * 2 ^ 1 < 2 ^ 25 + 1 ∧ 2 ^ 25 + 1 ≤ (2 ^ 24 + 1) * 2 ^ 1 ∧
    convert (.fin false (2 ^ 24) 0 true) fp32 .rdn 0 = convert (.fin false (2 ^ 24 + 1) 0 false) fp32 .rdn 0 := by decide +kernel
/-- A buffered store to host memory behind a link that is down: publishing it leaves a fault. -/
def lostSt : State :=
  let s := st []
  { s with cx := { s.cx with sb := [{ line := hostBase / 64, bytes := [(0, 1)], tags := [], pooled := false, author := none
                                      via := some { cid := 0, tid := uTask.tid, pend := { f := faultAt cECC 0, pc := 0x20000, ir := [] } } }] } }
theorem witness_EndsOfTasks_lost : let s := lostSt
    Running s ∧ On s (rr 0 0 0) ∧ s.cx.task = some uTask ∧ okScp (rr 0 0 0).x = true ∧ ¬ Crowded s ∧ (drainAll s s.cur).cx.trapNext = [] ∧
      ¬ Publishes (drainAll s s.cur) ∧ Publishes (drainAll (st []) 0) ∧ (if (rr 0 0 0).x.scp = 0 then uTask.csc else 9) < 4 ∧
      (publishCtx (drainAll s s.cur) s.cur).cx.trapNext ≠ [] := by decide +kernel
theorem witness_Futures_waiting :
    [(1 + 4, 0), (1 + 4 * 16383, 0xFFFFFFFF)].all (fun x =>
      let s := wrBytes (st []) 0x40 (bytesOfNat 8 (x.1 + 2 ^ 16 * 0x1000))
      let u := portTurn (portTurn s false 0x40) false 0x1030
      decide (word8 s 0x40 % 4 = 1 ∧ word8 u 0x40 % 4 = 1) && (word8 u 0x40 / 4 % 2 ^ 14 == 16383) == decide (x.2 = 0xFFFFFFFF)) = true ∧
    word8 (portTurn (portTurn (wrBytes (st []) 0x40 [3]) false 0x40) false 0x1030) 0x40 % 4 = 3 ∧ (0x1030 : Nat) ≠ 0xFFFFFFFF := by decide +kernel
theorem witness_GroupsBarriersRings_reads : let o := rr 8 9 10
    [0, 1].all (fun ph =>
      let s := groupSt 2 0 ph none
      ok (objectRead (reg s o.a) 16) s (fun r s1 => (groupOf r.2).any (fun x => x.2.2.1 == decide (ph = 1) && s1.cx.got.isNone) &&
        ok (acquire (scopeOf o.x 4)) s1 (fun _ _ => true))) = true ∧
    [0, 1].all (fun ph => let s := barSt 1 1 0 ph
      ok (objectRead (reg s o.a) 16) s (fun r s1 => r.1 == 0x100 && (natOfBytes r.2).testBit 96 == decide (ph = 1) && s1.cx.got.isNone)) = true ∧
    [0, 1].all (fun wp => let s := ringSt wp 0
      ok (ringRead (reg s o.a)) s (fun r s1 => (r.2.wp != r.2.rp) == decide (wp = 1) && ok (acquire (scopeOf o.x 4)) s1 (fun _ _ => true))) = true := by
  decide +kernel
/-- On die 0 a timestamp task runs on context 0, a free task waits for room on context 1, engine 0 is in use, and the cancel is due. -/
def cancelSt : State :=
  let t1 : Task := { uTask with tid := { uTask.tid with dom := 0, seq := 7 } }
  updEngine (updDisp { tsSt [] with
    others := [(1, { Ctx.reset with task := some t1, wait := some (.port 15) })]
    live := [{ task := uTask, st := .running 0, readFrom := [], dropped := false }, { task := t1, st := .running 1, readFrom := [], dropped := false }] }
    0 (fun d => { d with cancelDue := true })) 0 (fun e => { e with lastQueue := 1 })
theorem witness_DispatcherSteps_cancelled : let s := cancelSt
    Powered s ∧ (dispAt s 0).cancelDue = true ∧ (dispAt s 0).resident = [] ∧ (dispAt s 0).queues = [] ∧ (dispAt s 0).spawn = [] ∧ (dispAt s 0).due = [] ∧
      (dispAt s 0).saved = [] ∧ (range' 0 1024).all (fun c => (ctxOf s c).group.isNone) = true ∧ s.ended = [] ∧
      (let s1 := updDisp s 0 (fun d => { d with cancelDue := false, cancelled := true, cancelAt := s.cycle, resident := [], closed := none })
       (range' 0 1024).filter (fun c => (ctxOf s1 c).task.isSome) = [0, 1] ∧ isTs s1 (ctxOf s1 0) = true ∧
         (ctxOf s1 1).wait.any isStall = true ∧ cancelHits s1 1 = true) ∧
      (let t := asyncRec s 0 (ctxRec s 1 ((ctxOf s 1).task.getD uTask) { f := faultAt cCANCEL 0, pc := (ctxOf s 1).pc, ir := (ctxOf s 1).ir })
       isTs s (ctxOf s 1) = false ∧ (ctxOf s 1).task.any (fun x => !domTs t x.tid.dom) = true ∧ (ctxOf t 1).task = (ctxOf s 1).task) ∧
      look s.engines 0 ≠ none := by decide +kernel
/-- R223: the timestamp task is dropped and the stalled free task killed; nothing of the job lives. -/
theorem test_cancel_takes_tasks : nextHas (exec (.jcancelLinearise 0) cancelSt) (fun t => t.live.isEmpty && (dispAt t 0).cancelled &&
    (engineAt t 0).stopped) = true := by decide +kernel
theorem witness_DispatcherSteps_rebalance : let s := { taskQueueSt 1 with cycle := 4096 }
    s.cycle / 4096 ≠ (dispAt s 0).rebalanced / 4096 ∧ (∀ q ∈ pipeQueues s 0, hdrLacks s (dispAgt 0 q.1) q.2.hdr = none) ∧
      (let s := setDev (updDisp { s with agtTlbs := [] } 0 (fun d => { d with queues := [(5, { hdr := 0x40000, gto := 0, pl := 1, stg := 0, spilled := none })] })) 0x100648 1
       (pipeQueues s 0).head?.any (fun q => (hdrLacks s (dispAgt 0 q.1) q.2.hdr).isSome) = true) := by decide +kernel
theorem witness_EveryStepKeepsMemory : MemInv State.reset ∧ nextHas (exec (.nop (rr 0 0 0)) (st [])) (fun _ => true) = true ∧ MemInv (st []) ∧
    nextHas (step State.reset) (fun _ => true) = true := by
  refine ⟨?_, by decide +kernel, ?_, by decide +kernel⟩ <;> exact ⟨by decide +kernel, by intro m h; cases h <;> contradiction⟩
theorem witness_DeviceRegisterEvents_bootfails :
    (let s := setDev (wrBytes supTable (locHbm 0x10008) (bytesOfNat 8 0x47)) 0x100A18 (BitVec.ofNat 64 (2 ^ 42 + 2))
     (match agtXl s 0 (hdrVa (bits (dev s 0x100A18) 56 6)) .rd 64 64 true with
      | .ok x => linkDown s x
      | _ => false) = true) ∧ State.reset.host.failed = false := by decide +kernel
theorem witness_UnitAndJobEvents_jctl :
    State.reset.host.job = none ∧ { State.reset.host with job := some true }.job.isSome = true ∧
    (let s := State.reset
     let r := homeRead (jobEnds s) (locHbm (bits (dev s 0x100880) 38 12)) 8
     (look r.2.host.saved (natOfBytes r.1)).isNone = true) ∧
    (let s := { State.reset with host := { State.reset.host with saved := [(0, snapOf State.reset [])] } }
     let r := homeRead (jobEnds s) (locHbm (bits (dev s 0x100880) 38 12)) 8
     (look r.2.host.saved (natOfBytes r.1)).any (fun p => p.disp.all (fun d => d.2.saved == [])) = true) := by decide +kernel
theorem witness_MatrixEvents_ahead :
    let s := mcSt [(0x15, 2 + 9 * 16 + 256), (0x13, 255)] (0x2000 * 2 ^ 288) (fun c => { c with ft := [0, 0x10], busy := some chunk0, reuse := [(8, 2)] })
    let s := wrBytes (wrBytes s 0x2008 (bytesOfNat 8 (2 ^ 36))) (mcBase + 0x8000) (bytesOfNat 4 528)
    decide ((cellAt s mcSite).busy = some chunk0 ∧ cellReady s mcSite = true ∧ (cellCfg s mcSite).bcode = true ∧ (cellAt s mcSite).ahead = none) = true ∧
    (aheadDecode s mcSite chunk0).isSome = true ∧
    (nextChunk s mcSite chunk0).any (fun x => match arraysAt s (4 * mcSite) [(x.2.cfg.par 36 4 + 8 * x.2.tileNo, 8)] with
      | (none, s1) => (codedAt s1 x.2 (rdNat s1 (x.2.cfg.par 36 4 + 8 * x.2.tileNo) 8)).toOption.isSome
      | _ => false) = true := by decide +kernel
/-- A frozen graph of VRD site 2016, whose sites but 2095 are fenced. -/
def lostGraph : State :=
  let s := graphSt State.reset 2016 { oneGraph 2016 with elems := 0, frozen := true, lost := true }
  { s with fmap := (range' 2016 79).map (fun x => (x, true)) }
theorem witness_GraphEvents_lost :
    (look lostGraph.fab.graphs vrdBase).any (fun g =>
      decide (g.thawing = none ∧ g.freezing = none ∧ g.lost = true ∧ rmwDone lostGraph vrdBase g = true) &&
        (placesFor lostGraph vrdBase g).length == 1) = true ∧
    (let s := { lostGraph with fmap := (range' 2016 80).map (fun x => (x, true)) }
     (look s.fab.graphs vrdBase).any (fun g => (placesFor s vrdBase g).isEmpty) = true) := by decide +kernel
/-- R409: the graph's context goes on at the other place, with the token it held. -/
theorem test_relocate :
    let s := updElem lostGraph 8064 (fun e => { e with fields := [(1, 1)], ins := [(0, [tk tVAL 7])], frozen := true })
    (look s.fab.graphs vrdBase).any (fun g =>
      let t := runGraph (moveGraph s vrdBase (2 ^ 18 * 2095) g { g with col := 31, row := 43, lost := false }) (2 ^ 18 * 2095)
      (elemAt t 8380).ins == [(0, [tk tVAL 7])] && !(elemAt t 8380).frozen && (look t.fab.graphs (2 ^ 18 * 2095)).isSome &&
        (elemAt t 8064).ins == [] && !bit (fld t 8064 1) 0) = true := by decide +kernel
theorem witness_GraphEvents_readout :
    let g := { oneGraph mcSite with freezing := some (0, false), rmask := 0, rbuf := 0x40000 }
    (readoutWaits (graphSt (sup []) mcSite g) mcBase g).isSome = true ∧
    (let s := knows (graphSt (sup []) mcSite g) (unitBase + 2 ^ 13 + mcSite)
     readoutWaits s mcBase g = none) := by decide +kernel
theorem witness_HostEvents_answers :
    (let a : HostAcc := { port := 0, off := 1, size := 4, write := none, expected := none }
     a.port < 2 ∧ a.off % a.size ≠ 0) ∧ (regAssigned 0x100FF8 = false ∧ 0x100FF8 % 8 = 0) ∧
    (let s := State.reset
     let old := regView s (0x100404 / 8 * 8) / 2 ^ (8 * (0x100404 % 8)) % 2 ^ (8 * 4)
     old = 0 % 2 ^ (8 * 4) ∧ old ≠ 1 % 2 ^ (8 * 4)) ∧
    (dev (setDev State.reset 0x100A18 2) 0x100A18).testBit 1 = true ∧ (dev State.reset 0x100A18).testBit 1 = false := by decide +kernel

end Sys2Proof.Tests
end

section
/-! The statements on address spaces and the memory system: the checks of an access, device registers, and the steps of the
memory hierarchy. -/

namespace Sys2Proof.Proofs.AddressSpaces
open Sys2Proof Sys2Proof.Machine

/-! ## The checks of a core's VA access, in the order of R35 -/

section
variable {s t : State} {va : W64} {acc : Acc} {n align : Nat} {scalar : Bool} {e : TlbEnt}

theorem translate_of_not_canon (hc : canon va = false) :
    translate va acc n align scalar s = .error (.trap (faultAt cADDR va) none) s := by
  simp [Machine.translate, hc]

theorem translate_of_misaligned (hc : canon va = true) (ha : va.toNat % align ≠ 0) :
    translate va acc n align scalar s = .error (.trap (faultAt cALIGN va) none) s := by
  simp [Machine.translate, hc, ha]

theorem translate_of_faults (hc : canon va = true) (ha : va.toNat % align = 0) (hl : coreLeaf s s.cur va.toNat = .faults) :
    translate va acc n align scalar s = .error (.trap (faultAt cPAGE va) none) s := by
  simp [Machine.translate, hc, ha, hl]

theorem translate_of_walks (hc : canon va = true) (ha : va.toNat % align = 0) (hl : coreLeaf s s.cur va.toNat = .walks t) :
    translate va acc n align scalar s = .error (.wait (.walk (pageOf va.toNat)) (some t)) t := by
  simp [Machine.translate, hc, ha, hl]

/-- With a leaf held, what is left to check is what formXl checks. -/
theorem translate_of_held_error {f : FaultInfo} (hc : canon va = true) (ha : va.toNat % align = 0)
    (hl : coreLeaf s s.cur va.toNat = .held e t) (hf : formXl s e va acc n scalar s.cx.mode = .error f) :
    translate va acc n align scalar s = .error (.trap f none) s := by
  simp [Machine.translate, hc, ha, hl, hf]

/-- The permissions are the first check on a leaf (Table 1-9). -/
theorem formXl_of_not_permits {super : Bool} (hp : permits e.leaf.toNat acc super = false) :
    formXl s e va acc n scalar super = .error (faultAt cPROT va) := by
  simp [formXl, hp]

end

/-! ## The checks of an S-space access, in the order of R35 -/

section
variable {s : State} {ea : W64} {aligned super : Bool}

theorem checkPlace_of_above (h : 2 ^ 32 ≤ ea.toNat) : checkPlace s ea aligned super = .error (faultAt cADDR ea) := by
  rw [checkPlace, if_pos h]

theorem checkPlace_of_absent (h : ea.toNat < 2 ^ 32) (hp : sPlace s ea.toNat = .absent) :
    checkPlace s ea aligned super = .error (faultAt cADDR ea) := by
  rw [checkPlace, if_neg (Nat.not_le.mpr h), if_pos hp]

/-- At a bank or a node, what is left to check is the alignment and then the regions. -/
theorem checkPlace_of_present (h : ea.toNat < 2 ^ 32) (hp : sPlace s ea.toNat ≠ .absent) :
    checkPlace s ea aligned super =
      if !aligned then .error (faultAt cALIGN ea)
      else if !super && (srgn s ea.toNat).2 then .error (faultAt cPROT ea)
      else .ok ea.toNat := by
  rw [checkPlace, if_neg (Nat.not_le.mpr h), if_neg hp]

end

/-- Settles O22: each check by the lemma of its place in the order of R35. -/
theorem addressChecks : Obligations.AddressChecks := by
  unfold Obligations.AddressChecks
  refine ⟨fun s va acc n align scalar => ⟨translate_of_not_canon, translate_of_misaligned, translate_of_faults,
    fun t => translate_of_walks, fun e t hc ha hl hp => translate_of_held_error hc ha hl (formXl_of_not_permits hp)⟩, ?_⟩
  intro s ea align super
  refine ⟨checkPlace_of_above, checkPlace_of_absent, fun hb hp ha => ?_, fun hb hp ha hu hr => ?_, fun hb hp ha hr => ?_⟩
  all_goals rw [checkS, checkPlace_of_present hb hp]
  · simp [ha]
  · simp [ha, hu, hr]
  · rcases hr with hr | hr <;> simp [ha, hr]

/-! ## Device registers (R16, R268, R415) -/

theorem runInsn_on_ok {s t : State} {f : Flow} {len : Nat} {body : Act Flow} (h : Running s) (hb : body s = .ok f t) :
    runInsn true true len body s = .next (finish s len (.ok f t)) := by
  rw [runInsn_on h, hb]

/-- A scalar load is loadM of its space and size, a scalar store storeM. -/
theorem exec_of_mem_loads {e : (OpM → Instr) × Bool × Nat} (he : e ∈ loads) (o : OpM) (s : State) :
    exec (e.1 o) s = loadM o e.2.1 e.2.2 s := by
  simp only [loads, List.mem_cons, List.not_mem_nil, or_false] at he
  rcases he with rfl | rfl | rfl | rfl | rfl | rfl | rfl | rfl <;> rfl

theorem exec_of_mem_stores {e : (OpM → Instr) × Bool × Nat} (he : e ∈ stores) (o : OpM) (s : State) :
    exec (e.1 o) s = storeM o e.2.1 e.2.2 s := by
  simp only [stores, List.mem_cons, List.not_mem_nil, or_false] at he
  rcases he with rfl | rfl | rfl | rfl | rfl | rfl | rfl | rfl <;> rfl

/-- A free or frontier task passes the gate of a device register at once, and counts as exposed. -/
theorem deviceGate_of_free {s : State} (h : Free s) : deviceGate s = .ok () { s with cx := exposedCtx s.cx } := by
  have hf : needFrontier s = .ok () s := by simp [needFrontier, show isSpec s s.cx = false from h]
  rw [deviceGate, act_bind hf]; rfl

theorem loadScalar_device {sp : Bool} {ea : W64} {n : Nat} {s s1 : State} {x : Xl} (hx : Does (xlAny sp ea .rd n true) s x s1)
    (ht : x.t = 3) (hf : Free s1) :
    loadScalar sp ea n s = .ok (regRead { s1 with cx := exposedCtx s1.cx } (x.pa % 2 ^ 32) n).1
      (regRead { s1 with cx := exposedCtx s1.cx } (x.pa % 2 ^ 32) n).2 := by
  rw [loadScalar, act_bind hx, if_pos ht]
  exact act_bind (deviceGate_of_free hf)

/-- A read of a register changes no context. -/
@[simp] theorem regRead_cx (s : State) (off n : Nat) : (regRead s off n).2.cx = s.cx := by
  simp only [regRead]; split <;> rfl

@[simp] theorem outOfFrame_exposedCtx (c : Ctx) (x : BitVec 6) : outOfFrame (exposedCtx c) x = outOfFrame c x := rfl

theorem hnoteHeld_of_ne {off : Nat} (h : off ≠ 0x100A08) (n : Nat) (v : W64) (s : State) : hnoteHeld off n v s = .ok false s := by
  rw [hnoteHeld, act_view, if_pos h]; rfl

/-- A store to a register that takes the write, but for HNOTE: the write follows the store's retirement (log 21). -/
theorem storeScalar_device {sp : Bool} {ea : W64} {n : Nat} {v : W64} {s s1 t : State} {x : Xl}
    (hx : Does (xlAny sp ea .wr n true) s x s1) (ht : x.t = 3) (hf : Free s1) (hn : x.pa % 2 ^ 32 ≠ 0x100A08)
    (hw : regWrite { s1 with cx := exposedCtx s1.cx } (x.pa % 2 ^ 32) n v.toNat = .ok t) :
    storeScalar sp ea n v s = .ok (.after (fun s => match regWrite s (x.pa % 2 ^ 32) n v.toNat with
        | .ok s' => s'
        | .error _ => s)) { s1 with cx := exposedCtx s1.cx } := by
  rw [storeScalar, act_bind hx, if_pos ht, act_bind (deviceGate_of_free hf), act_view, act_bind (hnoteHeld_of_ne hn _ _ _)]
  simp only [id, hw]
  rfl

/-- An 8-byte read of a register takes all of it (R4, R415). -/
theorem regRead_eight {s : State} {off : Nat} (h8 : off % 8 = 0) (hv : regView s off < 2 ^ 64) :
    regRead s off 8 = (regView s off, if rcMask off % 2 ^ 64 = 0 then s
      else setDev s off (BitVec.ofNat 64 (Nat.land (dev s off) (2 ^ 64 - 1 - rcMask off % 2 ^ 64)))) := by
  have ho : off / 8 * 8 = off := by omega
  have hm : msk (rcMask off) (byteMask off 8) = rcMask off % 2 ^ 64 := by
    rw [msk, byteMask, h8, Nat.mul_zero, Nat.pow_zero, Nat.mul_one]
    exact Nat.and_two_pow_sub_one_eq_mod _ 64
  simp only [regRead, ho, hm, h8, Nat.mul_zero, Nat.pow_zero, Nat.div_one, Nat.mod_eq_of_lt hv]
  rfl

theorem load_device {e : (OpM → Instr) × Bool × Nat} (he : e ∈ loads) {o : OpM} {s s1 : State} {x : Xl} (hr : Running s)
    (ho : OnM s o) (ht : IsReg s o.t) (ha : IsReg s o.a) (hf : Free s1) (hc : s1.cx = s.cx)
    (hx : Does (xlAny e.2.1 (reg s o.a + offOf o e.2.2) .rd e.2.2 true) s x s1) (h3 : x.t = 3) :
    exec (e.1 o) s = .next (retire
      (let r := regRead { s1 with cx := exposedCtx s1.cx } (x.pa % 2 ^ 32) e.2.2
       { r.2 with cx := setG r.2.cx o.t.toNat (BitVec.ofNat 64 r.1) }) (after s (lenM o))) := by
  rw [exec_of_mem_loads he, loadM, ho]
  refine (runInsn_on_ok hr (f := .next) ?_).trans (congrArg _ (finish_next _))
  have hw : IsReg (regRead { s1 with cx := exposedCtx s1.cx } (x.pa % 2 ^ 32) e.2.2).2 o.t :=
    ⟨ht.1, by rw [regRead_cx, outOfFrame_exposedCtx, hc]; exact ht.2⟩
  rw [act_bind (checkG_reg ht), act_bind (rdG_reg ha), act_bind (loadScalar_device hx h3 hf), act_bind (wrG_reg hw _)]
  rfl

theorem store_device {e : (OpM → Instr) × Bool × Nat} (he : e ∈ stores) {o : OpM} {s s1 t u : State} {x : Xl} (hr : Running s)
    (ho : OnM s o) (ht : IsReg s o.t) (ha : IsReg s o.a) (hf : Free s1)
    (hx : Does (xlAny e.2.1 (reg s o.a + offOf o e.2.2) .wr e.2.2 true) s x s1) (h3 : x.t = 3) (hn : x.pa % 2 ^ 32 ≠ 0x100A08)
    (hw : regWrite { s1 with cx := exposedCtx s1.cx } (x.pa % 2 ^ 32) e.2.2 (reg s o.t).toNat = .ok t)
    (hu : regWrite (retire { s1 with cx := exposedCtx s1.cx } (after s (lenM o))) (x.pa % 2 ^ 32) e.2.2 (reg s o.t).toNat = .ok u) :
    exec (e.1 o) s = .next u := by
  rw [exec_of_mem_stores he, storeM, ho, runInsn_on hr, act_bind (rdG_reg ht), act_bind (rdG_reg ha),
    storeScalar_device hx h3 hf hn hw, finish_after]
  have hl : s.cx.pc + BitVec.ofNat 64 (lenX o.has) = after s (lenM o) := rfl
  rw [hl, hu]

/-- Settles O25: by the runs of loadScalar and storeScalar on a device register, and what an 8-byte read takes. -/
theorem deviceRegisterAccess : Obligations.DeviceRegisterAccess := by
  unfold Obligations.DeviceRegisterAccess
  refine ⟨⟨fun e he o s s1 x hr ho ht ha hf hc hx h3 => load_device he hr ho ht ha hf hc hx h3,
    fun e he o s s1 t x hr ho ht ha hf _ hx h3 hn hw u hu => store_device he hr ho ht ha hf hx h3 hn hw hu⟩, ?_⟩
  intro s off h8 hv
  rw [regRead_eight h8 hv]
  exact ⟨rfl, rfl⟩

/-! ## Walks (R31, R33) -/

theorem walkStep_of_idle {s : State} {die : Nat} (h : (walkerAt s die).walks = []) : walkStep s die = s := by
  simp [walkStep, h]

/-- The only walk of a die, under way at a table of a level: what the entry there is decides. -/
theorem walkStep_of_single {s s1 : State} {die level table : Nat} {w : Walk} {bs : List Byte}
    (hw : (walkerAt s die).walks = [w]) (hp : w.pos = some (level, table))
    (hr : homeRead s (locHbm (table + 8 * vaIndex (2 ^ 16 * w.page) level)) 8 = (bs, s1)) :
    walkStep s die = match entryOf (2 ^ 16 * w.page) level (natOfBytes bs) with
      | .page => walkEnd s1 die 0 w none
      | .leaf e => walkEnd s1 die 0 w (some e)
      | .table t => updWalker s1 die (fun x =>
          keepPtr { x with walks := x.walks.set 0 { w with pos := some (level + 1, t) } } (passed (2 ^ 16 * w.page) level t)) := by
  simp only [walkStep, hw, hp, List.length_singleton, Nat.le_refl, if_true, List.getElem?_cons_zero, Option.getD_some, hr] <;> rfl

/-! ## Lines of the instruction caches (R65, R66) -/

theorem icacheArrive_of_unasked {s : State} {core : Nat} {va : W64} (bad : Bool) (h : ∀ f ∈ (coreAt s core).ifills, f.va ≠ va) :
    icacheArrive s core va bad = s := by
  have hn : (coreAt s core).ifills.find? (fun f => f.va = va) = none := by simpa [List.find?_eq_none] using h
  simp only [icacheArrive, hn]

/-- The one line that a core has asked for arrives: the cache takes it, but for a second bad copy. -/
theorem icacheArrive_of_single {s s1 : State} {core : Nat} {f : IFill} {l : CLine} (bad : Bool)
    (hf : (coreAt s core).ifills = [f])
    (hl : lineAt (updCore s core (fun c => { c with ifills := [] })) (64 * f.line) = (l, s1)) :
    icacheArrive s core f.va bad =
      wakeFetch (if f.again && (l.bad || bad) then s1 else icFill s1 core { l with bad := l.bad || bad }) core f.va
        (f.again && (l.bad || bad)) := by
  have he : updCore s core (fun c => { c with ifills := c.ifills.erase f }) = updCore s core (fun c => { c with ifills := [] }) := by
    simp [updCore, hf]
  simp only [icacheArrive, hf, List.find?_cons_of_pos, decide_true, he, hl]

/-! ## Banks and RMW nodes (R41, R43, R53) -/

/-- Whether the head of port M, of the same cycle and for the same word, goes before a request of port F (R41). -/
def yields (s : State) (k : Nat) (portF : Bool) (r : Req) : Bool :=
  portF && (bankHead s k false).any (fun m => m.arrival == r.arrival && m.loc / 8 == r.loc / 8)

section
variable {s : State} {k : Nat} {portF : Bool} {r : Req}

theorem yields_eq_false (h : portF = true → ∀ m, bankHead s k false = some m → m.arrival ≠ r.arrival ∨ m.loc / 8 ≠ r.loc / 8) :
    yields s k portF r = false := by
  cases portF with
  | false => rfl
  | true =>
    cases hm : bankHead s k false with
    | none => simp [yields, hm]
    | some m =>
      rw [yields, hm, Bool.true_and, Option.any_some, Bool.and_eq_false_iff]
      exact (h rfl m hm).imp beq_false_of_ne beq_false_of_ne

theorem yields_of_same {m : Req} (hm : bankHead s k false = some m) (ha : m.arrival = r.arrival) (hl : m.loc / 8 = r.loc / 8) :
    yields s k true r = true := by
  simp [yields, hm, ha, hl]

theorem wordBusy_eq_false {loc : Nat} (h : ∀ e ∈ (nodeAt s k).inflight, e.1.loc / 8 ≠ loc / 8) : wordBusy s k loc = false := by
  simpa [wordBusy] using h

theorem wordBusy_of_mem {loc : Nat} {e : Req × W64} (he : e ∈ (nodeAt s k).inflight) (hl : e.1.loc / 8 = loc / 8) :
    wordBusy s k loc = true := by
  rw [wordBusy, List.any_eq_true]
  exact ⟨e, he, by simp [hl]⟩

theorem bankServe_of_none (h : bankHead s k portF = none) : bankServe s k portF = s := by
  simp only [bankServe, h]

theorem rmwRead_of_none (h : bankHead s k portF = none) : rmwRead s k portF = s := by
  simp only [rmwRead, h]

/-- A head waits while the comparator holds its word, or port M goes first. -/
theorem bankServe_of_waits (h : bankHead s k portF = some r) (hw : wordBusy s k r.loc = true ∨ yields s k portF r = true) :
    bankServe s k portF = s := by
  simp only [bankServe, h]
  refine if_pos ?_
  rw [Bool.or_eq_true, Bool.or_eq_true]
  exact hw.imp Or.inr id

theorem rmwRead_of_waits (h : bankHead s k portF = some r) (hw : wordBusy s k r.loc = true ∨ yields s k portF r = true) :
    rmwRead s k portF = s := by
  simp only [rmwRead, h]
  split
  · rfl
  · exact if_pos (hw.imp id Or.inl)

theorem bankServe_of_plain (h : bankHead s k portF = some r) (ho : r.op = none) (hb : wordBusy s k r.loc = false)
    (hy : yields s k portF r = false) : bankServe s k portF = serveReq (popBank s k portF) none r := by
  simp only [bankServe, h]
  refine if_neg ?_
  change ¬((r.op.isSome || wordBusy s k r.loc || yields s k portF r) = true)
  simp [ho, hb, hy]

/-- The head atomic of a port enters the comparator with its new value, after its context's own bytes (R53, R158). -/
theorem rmwRead_of_atomic {op : AtomOp} {s1 : State} (h : bankHead s k portF = some r) (ho : r.op = some op)
    (hb : wordBusy s k r.loc = false) (hy : yields s k portF r = false) (hr : (nodeAt s k).inflight.length < 8)
    (hp : poisoned s r.loc r.size = false) (hn : r.cid = none → s1 = s)
    (hc : ∀ c, r.cid = some c → s1 = publishWord s c r.loc r.size) :
    rmwRead s k portF = updNode (popBank s1 k portF) k (fun n => { n with inflight := n.inflight ++
      [(r, BitVec.ofNat 64 (atomNew op r.size (rdNat s1 r.loc r.size) (atomArg r.size r.data) (atomArg r.size r.expected)))] }) := by
  have hg : ¬(wordBusy s k r.loc = true ∨ yields s k portF r = true ∨ 8 ≤ (nodeAt s k).inflight.length) := by
    simp [hb, hy, hr]
  cases hcid : r.cid with
  | none =>
    rw [hn hcid]
    simp only [rmwRead, h, ho, hp, hcid]
    exact if_neg hg
  | some c =>
    rw [hc c hcid]
    simp only [rmwRead, h, ho, hp, hcid]
    exact if_neg hg

theorem rmwWrite_of_empty (h : (nodeAt s k).inflight = []) : rmwWrite s k = s := by
  simp only [rmwWrite, h]

theorem rmwWrite_of_cons {e : Req × W64} {es : List (Req × W64)} (h : (nodeAt s k).inflight = e :: es) :
    rmwWrite s k = settleWord s e.1.loc := by
  simp only [rmwWrite, h]

theorem scrub_of_bank {w : Nat} (err : EccKind) (h : isBank s (8 * w) = true) :
    scrub s w err = match err with
      | .clean => s
      | .single => countCe s (homeDie (8 * w))
      | .double => markPoison s (8 * w) 8 := by
  simp only [scrub, h, Bool.not_true, Bool.false_eq_true, if_false] <;> rfl

end

/-! ## Atomic engines and snoops (R54-R57) -/

theorem del_eq_self {α : Type} {m : FMap α} {n : Nat} (h : look m n = none) : del m n = m := by
  induction m with
  | nil => rfl
  | cons p r ih =>
    obtain ⟨k, v⟩ := p
    by_cases hk : k = n
    · simp [look, hk] at h
    · rw [look, if_neg hk] at h
      rw [del, if_neg hk, ih h]

theorem del_ins_self {α : Type} {m : FMap α} {n : Nat} (x : α) (h : look m n = none) : del (ins m n x) n = m := by
  induction m with
  | nil => simp [ins, del]
  | cons p r ih =>
    obtain ⟨k, v⟩ := p
    by_cases hk : k = n
    · simp [look, hk] at h
    · have hr : look r n = none := by rwa [look, if_neg hk] at h
      by_cases hn : n < k
      · simp [ins, hn, del, hk, del_eq_self hr]
      · simp [ins, hn, del, hk, ih hr]

/-- Of two writes of a key the later one stands, in any map. -/
theorem setD_setD {α : Type} [DecidableEq α] (m : FMap α) (d : α) (n : Nat) (x y : α) :
    setD (setD m d n x) d n y = setD m d n y := by
  have hd : del (setD m d n x) n = del m n := by
    by_cases hx : x = d
    · simp only [setD, hx, if_true, del_eq_self (look_del_self m n)]
    · simp only [setD, hx, if_false, put, del_ins_self x (look_del_self m n)]
  rw [setD, put, hd]
  rfl

@[simp] theorem clusterAt_updCluster_self (s : State) (k : Nat) (f : Cluster → Cluster) :
    clusterAt (updCluster s k f) k = f (clusterAt s k) := getD_setD_self _ _ _ _

theorem updCluster_updCluster (s : State) (k : Nat) (f g : Cluster → Cluster) :
    updCluster (updCluster s k f) k g = updCluster s k (fun c => g (f c)) := by
  simp [updCluster, clusterAt, getD_setD_self, setD_setD]

/-- With every head's line resident and no fill asked for, a pick performs its winner and asks for nothing. -/
theorem aeStep_of_resident {s : State} {cl p : Nat} {r : Req} (hp : aePick s cl = some (p, r))
    (hres : ∀ q ∈ (clusterAt s cl).ports, ∀ h, q.2.head? = some h →
      (clusterAt s cl).lines.any (fun l => l.line == h.loc / 64) = true)
    (hf : (clusterAt s cl).fills = []) : aeStep s cl = aeServe s cl p r := by
  have hm : ((aeHeads s cl).map (fun p => p.2.loc / 64)).filter
      (fun l => !(clusterAt s cl).lines.any (fun x => x.line == l) && !(clusterAt s cl).fills.contains l) = [] := by
    rw [List.filter_eq_nil_iff]
    intro l hl
    obtain ⟨x, hx, rfl⟩ := List.mem_map.mp hl
    obtain ⟨q, hq, hqx⟩ := List.mem_filterMap.mp hx
    obtain ⟨h, hh, rfl⟩ := Option.map_eq_some_iff.mp hqx
    rw [hres q hq h hh]
    simp
  simp only [aeStep, hm, hp, aeServe, updCluster_updCluster]
  simp [updCluster, hf]

theorem aeArrive_of_asked {s : State} {cl line : Nat} (h : (clusterAt s cl).fills.contains line = true) :
    aeArrive s cl line = aeFill s cl line := if_pos h

theorem aeArrive_of_unasked {s : State} {cl line : Nat} (h : (clusterAt s cl).fills.contains line = false) :
    aeArrive s cl line = s := if_neg (by rw [h]; exact Bool.false_ne_true)

/-- A line that no engine holds is recalled from none. -/
theorem recallLine_of_none {s : State} {line : Nat} (h : ∀ c ∈ s.clusters, ∀ l ∈ c.2.lines, l.line ≠ line) :
    recallLine s line = s := by
  refine List.foldlRecOn (motive := (· = s)) s.clusters _ rfl ?_
  intro t ht c hc
  have hn : c.2.lines.find? (fun l => l.line = line) = none := by simpa [List.find?_eq_none] using h c hc
  simp only [hn, ht]

/-- The only engine, whose first line it is, writes the line back and drops it (R56). -/
theorem recallLine_of_single {s : State} {cl : Nat} {c : Cluster} {l : CLine} {ls : List CLine} (hs : s.clusters = [(cl, c)])
    (hl : c.lines = l :: ls) : recallLine s l.line = updCluster (wrBytes s (64 * l.line) (bytesOfNat 64 l.data.toNat)) cl
      (fun c => { c with lines := c.lines.filter (fun x => x.line ≠ l.line) }) := by
  simp only [recallLine, hs, hl, List.foldl_cons, List.foldl_nil, List.find?_cons_of_pos, decide_true]

theorem hostSnoop_of_host {s : State} {line : Nat} (hlo : hostBase ≤ 64 * line) (hhi : 64 * line < peerBase)
    (h : ∀ c ∈ s.clusters, ∀ l ∈ c.2.lines, l.line ≠ line) :
    hostSnoop s line = { s with
      cores := s.cores.map (fun c => (c.1, { c.2 with l1d := c.2.l1d.filter (fun l => l.line ≠ line) })) } := by
  simp only [hostSnoop, recallLine_of_none h]
  exact if_neg (by omega)

/-! ## Accesses of peers (R15, R57) -/

theorem length_bytesOfNat (n v : Nat) : (bytesOfNat n v).length = n := by
  induction n generalizing v with
  | zero => rfl
  | succ n ih => rw [bytesOfNat, List.length_cons, ih]

/-- Bytes of one line are one piece. -/
theorem linePieces_of_line {ea : W64} {n : Nat} (h0 : 0 < n) (h : n + ea.toNat % 64 ≤ 64) : linePieces ea n = [(ea, n)] := by
  have hm : min n (64 - ea.toNat % 64) = n := by omega
  simp [linePieces, pieces, hm, Nat.ne_of_gt h0]

theorem toNat_locHbm {o : Nat} (h : o ≤ 2 ^ 39) : (BitVec.ofNat 64 (locHbm o)).toNat = locHbm o := by
  rw [BitVec.toNat_ofNat, Nat.mod_eq_of_lt]
  simp only [locHbm, hbmBase]
  omega

section
variable {s : State} {a : PeerAcc}

theorem peerServe_of_hidden (h : exposed s a.off a.len = false) : peerServe s a = s := by
  simp [peerServe, h]

/-- A peer's access that is served: of 1 to 128 bytes, within the memory, and exposed. -/
theorem peer_in_bounds (h0 : 0 < a.len) (hle : a.len ≤ 128) (hend : a.off + a.len ≤ 2 ^ 39) (hx : exposed s a.off a.len = true) :
    ¬(a.len = 0 ∨ 128 < a.len ∨ 2 ^ 39 < a.off + a.len ∨ (!exposed s a.off a.len) = true) := by
  rw [hx, Bool.not_true]
  simp only [Bool.false_eq_true, or_false]
  omega

theorem peerServe_write (hk : a.kind = 1) (h0 : 0 < a.len) (hline : a.len + a.off % 64 ≤ 64) (hend : a.off + a.len ≤ 2 ^ 39)
    (hx : exposed s a.off a.len = true) : peerServe s a = homeWrite s (locHbm a.off) (bytesOfNat a.len a.data) := by
  have hn := toNat_locHbm (o := a.off) (by omega)
  have hp : linePieces (BitVec.ofNat 64 (locHbm a.off)) a.len = [(BitVec.ofNat 64 (locHbm a.off), a.len)] :=
    linePieces_of_line h0 (by rw [hn]; simp only [locHbm, hbmBase]; omega)
  have ht : (bytesOfNat a.len a.data).take a.len = bytesOfNat a.len a.data :=
    List.take_of_length_le (Nat.le_of_eq (length_bytesOfNat _ _))
  simp only [peerServe, if_neg (peer_in_bounds h0 (by omega) hend hx), hk, hp, hn, List.foldl_cons, List.foldl_nil, Nat.sub_self, List.drop_zero, ht]
  rfl

theorem peerServe_atomic (hk : 2 ≤ a.kind) (hlen : a.len = 8) (ha : a.off % 8 = 0) (hend : a.off + 8 ≤ 2 ^ 39)
    (hx : exposed s a.off 8 = true) (hp : poisoned s (locHbm a.off) 8 = false) :
    peerServe s a = (rmwAt (giveUp s (locHbm a.off / 64)) (rmwOp (a.kind - 2)) (locHbm a.off) 8 (BitVec.ofNat 64 a.data)
      (BitVec.ofNat 64 a.expected)).2 := by
  have hb := peer_in_bounds (s := s) (a := a) (by omega) (by omega) (by omega) (by rwa [hlen])
  have h0 : a.kind ≠ 0 := by omega
  have h1 : a.kind ≠ 1 := by omega
  have hg : ¬((a.len ≠ 2 ∧ a.len ≠ 4 ∧ a.len ≠ 8) ∨ a.off % a.len ≠ 0 ∨ poisoned s (locHbm a.off) a.len = true) := by
    simp [hlen, ha, hp]
  simp only [peerServe, if_neg hb, if_neg h0, if_neg h1, if_neg hg]
  rw [hlen]

end

/-! ## The statement of the memory's steps -/

/-- Settles O51: each step by the lemma of the operation that it runs. -/
theorem memoryEvents : Obligations.MemoryEvents := by
  unfold Obligations.MemoryEvents
  intro s k cl line portF hon
  simp only [exec_walkComplete, execWalkComplete, exec_icacheMissFill, execIcacheMissFill, exec_bankPortRequest,
    execBankPortRequest, exec_rmwAtomic, execRmwAtomic, exec_rmwAtomicComplete, execRmwAtomicComplete, exec_bankScrub,
    execBankScrub, exec_atomicEnginePick, execAtomicEnginePick, exec_atomicEngineLineFill, execAtomicEngineLineFill,
    exec_atomicEngineRecall, execAtomicEngineRecall, exec_hostSnoop, execHostSnoop, exec_peerAccessServe,
    execPeerAccessServe, exec_memorySideCacheAccess, execMemorySideCacheAccess, runEvent_on hon, Host.Outcome.next.injEq]
  refine ⟨?walkIdle, ?walk, ?fillUnasked, ?fill, ?noHead, ?plain, ?busy, ?yields, ?atomic, ?noAtomic, ?complete, ?scrub, ?pick,
    ?aeFill, ?aeNoFill, ?noRecall, ?recallOne, ?snoop, ?peerWrite, ?peerAtomic, ?peerHidden, ?noError, ?error, ?homeError⟩
  case walkIdle => exact walkStep_of_idle
  case walk =>
    intro w level table bs s1 hw hp hr
    have h := walkStep_of_single hw hp hr
    refine ⟨fun he => ?_, fun e he => ?_, fun t he => ?_⟩
    all_goals rw [he] at h; exact h
  case fillUnasked => exact fun va bad => icacheArrive_of_unasked bad
  case fill =>
    intro f bad l s1 hf hl
    have h := icacheArrive_of_single bad hf hl
    refine ⟨fun hgood => ?_, fun hagain hbad => ?_⟩
    · have hb : (f.again && (l.bad || bad)) = false := by
        rcases hgood with ha | ⟨hl, hb⟩
        · rw [ha, Bool.false_and]
        · rw [hl, hb, Bool.or_false, Bool.and_false]
      rw [hb] at h
      exact h
    · have hb : (f.again && (l.bad || bad)) = true := by simpa [hagain] using hbad
      rw [hb] at h
      exact h
  case noHead => exact fun h => ⟨bankServe_of_none h, rmwRead_of_none h⟩
  case plain => exact fun r h ho hb hy => bankServe_of_plain h ho (wordBusy_eq_false hb) (yields_eq_false hy)
  case busy =>
    intro r e h he hl
    have hw := Or.inl (b := yields s k portF r = true) (wordBusy_of_mem he hl)
    exact ⟨bankServe_of_waits h hw, rmwRead_of_waits h hw⟩
  case yields =>
    intro r m h hm ha hl
    have hw := Or.inr (a := wordBusy s k r.loc = true) (yields_of_same hm ha hl)
    exact ⟨bankServe_of_waits h hw, rmwRead_of_waits h hw⟩
  case atomic =>
    exact fun r op s1 h ho hb hy hr hp hn hc =>
      rmwRead_of_atomic h ho (wordBusy_eq_false hb) (yields_eq_false hy) hr hp hn hc
  case noAtomic => exact rmwWrite_of_empty
  case complete => exact fun e r => rmwWrite_of_cons
  case scrub => exact fun w h => ⟨scrub_of_bank .clean h, scrub_of_bank .single h, scrub_of_bank .double h⟩
  case pick => exact fun p r => aeStep_of_resident
  case aeFill => exact aeArrive_of_asked
  case aeNoFill => exact aeArrive_of_unasked
  case noRecall => exact recallLine_of_none
  case recallOne =>
    rintro c l ls hs hl rfl
    exact recallLine_of_single hs hl
  case snoop => exact hostSnoop_of_host
  case peerWrite => exact fun a => peerServe_write
  case peerAtomic => exact fun a => peerServe_atomic
  case peerHidden => exact fun a => peerServe_of_hidden
  case noError => rfl
  case error => exact fun die core => ⟨rfl, rfl⟩
  case homeError => exact fun hlo hhi => if_pos ⟨hlo, hhi⟩

end Sys2Proof.Proofs.AddressSpaces
end

section
/-! The statements on fibres and coded tiles: LDBM and STBM on a chunk of a bitmask-plus-values block. -/

namespace Sys2Proof.Proofs.CodedTiles
open Sys2Proof Sys2Proof.Machine

/-! ## The block instructions by the space they act in -/

/-- LDBM of either space is ldbmOf of it, STBM stbmOf. -/
theorem exec_of_mem_ldbm {e : (OpR → Instr) × Bool} (he : e ∈ [((Instr.ldbm : OpR → Instr), false), (.ldbmS, true)]) (o : OpR)
    (s : State) : exec (e.1 o) s = ldbmOf o e.2 s := by
  simp only [List.mem_cons, List.not_mem_nil, or_false] at he
  rcases he with rfl | rfl <;> rfl

theorem exec_of_mem_stbm {e : (OpR → Instr) × Bool} (he : e ∈ [((Instr.stbm : OpR → Instr), false), (.stbmS, true)]) (o : OpR)
    (s : State) : exec (e.1 o) s = stbmOf o e.2 s := by
  simp only [List.mem_cons, List.not_mem_nil, or_false] at he
  rcases he with rfl | rfl <;> rfl

/-- A scalar R word that is well formed and executes retires with what its body leaves. -/
theorem runR_on_next {ok : Bool} {o : OpR} {body : Act Flow} {s t : State} (hr : Running s) (hok : ok = true) (ho : On s o)
    (hb : Does body s .next t) : runR ok o body s = .next (retire t (after s (lenR o))) := by
  rw [runR, hok, ho, runInsn_on hr, show body s = .ok .next t from hb, finish_next]
  rfl

/-! ## A chunk of a block (R103, R275) -/

/-- The mask bits that a block sets within the chunk of l elements at pos. -/
abbrev chunkCount (mb : List Byte) (pos n l : Nat) : Nat := maskCount mb (min (pos + l) n) - maskCount mb pos

/-- Where in a block of n elements of a size the value of a rank stands, behind its header and mask (R103). -/
abbrev valueAt (n size rank : Nat) : Nat := 16 + bmvMask n + size * rank

/-- The register that LDBM writes from a block's mask bytes and the chunk's value bytes. -/
def chunkVec (mb vb : List Byte) (size pos n : Nat) : Vec :=
  BitVec.ofNat 512 ((ldbmElems mb
    ((range' 0 (chunkCount mb pos n (64 / size))).map (fun i => natOfBytes ((vb.drop (size * i)).take size)))
    pos n (64 / size) 0).foldl (fun a e => a + e.2 * 2 ^ (8 * size * e.1)) 0)

/-- The header that STBM writes for a count of kept values where the capacity was not overrun (Table 4-3). -/
abbrev storedHdr (h : BmvHdr) (nnz : Nat) : Nat :=
  h.n + 2 ^ 16 * nnz + 2 ^ 32 * h.cap + 2 ^ 48 * h.fmt + (if h.zneg then 2 ^ 52 else 0)

section
variable {sp : Bool} {o : OpR} {s s1 s2 s3 s4 s5 : State} {hb mb vb : List Byte} {h : BmvHdr} {size pos : Nat}
  {els : List (Nat × Nat)} {nnz m : Nat}

/-! What both ask for: a word that is well formed and executes, at a block whose header is good and of its format, and a position
where a chunk begins. -/

variable (hr : Running s) (hx : okXimm o.x = true) (hf : bmvFmt o.x.ximm.toNat = true) (ho : On s o) (ha : IsReg s o.a)
  (hload : Does (loadWhole sp (reg s o.a) 16) s hb s1) (hh : bmvHdr hb = h) (hsize : elemSize o.x.ximm.toNat = size)
  (hn : h.n ≠ 0) (hbad : h.bad = false) (hfmt : h.fmt = o.x.ximm.toNat) (halign : pos % (64 / size) = 0)
include hr hx hf ho ha hload hh hsize hn hbad hfmt halign

/-- LDBM of an element chunk of a good block (R277): no check stops it, and it writes the chunk's elements. -/
theorem ldbmOf_of_good (hd : IsVec o.d) (hp : IsReg s o.b) (hpos : (reg s o.b).toNat = pos) (hcap : h.nnz ≤ h.cap)
    (hnnz : h.nnz ≤ h.n) (hlt : pos < h.n)
    (hcheck : Does (spanCheck sp (reg s o.a) .rd (16 + bmvMask h.n + bmvVals h.cap size)) s1 () s2)
    (hmask : Does (spanLoad sp (reg s o.a + 16) (bmvMask h.n)) s2 mb s3) (hcount : maskCount mb (8 * bmvMask h.n) = h.nnz)
    (hvals : Does (spanLoad sp (reg s o.a + BitVec.ofNat 64 (valueAt h.n size (maskCount mb pos)))
      (size * chunkCount mb pos h.n (64 / size))) s3 vb s4) :
    ldbmOf o sp s = .next (retire
      { s4 with cx := { s4.cx with v := setD s4.cx.v 0 o.d.toNat (chunkVec mb vb size pos h.n) } } (after s (lenR o))) := by
  have hgood : ¬(h.n = 0 || !bmvFmt h.fmt || decide (h.cap < h.nnz) || decide (h.n < h.nnz) || h.bad) = true := by
    simp [hn, hfmt, hf, Nat.not_lt.mpr hcap, Nat.not_lt.mpr hnnz, hbad]
  subst hpos hsize hh
  refine runR_on_next hr (by simp [hx, hf, hd.1]) ho ?_
  rw [Does, act_bind (checkV_vec hd), act_bind (rdG_reg ha), act_bind (rdG_reg hp), act_bind hload]
  rw [if_neg hgood, if_neg (not_not_intro hfmt), if_neg (not_not_intro halign), if_neg (Nat.not_le.mpr hlt), act_bind hcheck, act_bind hmask,
    if_neg (not_not_intro hcount), act_bind hvals, act_bind (wrV_vec hd _)]
  rfl

/-- STBM of a chunk that is not the block's last and that the block has room for (R276): no check stops it, and it writes the kept
values, the mask bits and the header. -/
theorem stbmOf_of_room (hv : IsVec o.b) (hp : IsReg s o.d) (hpos : (reg s o.d).toNat = pos) (hlt : pos + 64 / size < h.n)
    (hopen : pos = 0 ∨ (h.ovr = false ∧ h.nnz ≤ h.cap))
    (hscan : bmvScan h (getD s.cx.v 0 o.b.toNat) pos size (64 / size) 0 (if pos = 0 then 0 else h.nnz) [] 0 = (els, nnz, m, none))
    (hcheck : Does (spanCheck sp (reg s o.a) .wr (16 + bmvMask h.n + bmvVals h.cap size)) s1 () s2)
    (hvals : Does (els.forM (fun x => storeSpan sp (reg s o.a + BitVec.ofNat 64 (valueAt h.n size x.1)) (bytesOfNat size x.2))) s2 () s3)
    (hmask : Does (storeSpan sp (reg s o.a + BitVec.ofNat 64 (16 + pos / 8)) (bytesOfNat (64 / size / 8) m)) s3 () s4)
    (hhdr : Does (storeSpan sp (reg s o.a) (bytesOfNat 8 (storedHdr h nnz))) s4 () s5) :
    stbmOf o sp s = .next (retire s5 (after s (lenR o))) := by
  have hgood : ¬(decide (h.n = 0) || h.fmt != o.x.ximm.toNat || h.bad) = true := by simp [hn, hfmt, hbad]
  have hovr : ¬(decide (pos ≠ 0) && h.ovr) = true := by
    rcases hopen with h0 | ⟨hopen, -⟩
    · simp [h0]
    · simp [hopen]
  have hfull : ¬(decide (pos ≠ 0) && decide (h.cap < h.nnz)) = true := by
    rcases hopen with h0 | ⟨-, hroom⟩
    · simp [h0]
    · simp [Nat.not_lt.mpr hroom]
  have hlast : ¬((none : Option Nat).isSome || decide (h.n ≤ pos + 64 / size)) = true := by simp [Nat.not_le.mpr hlt]
  subst hpos hsize hh
  refine runR_on_next hr (by simp [hx, hf, hv.1]) ho ?_
  rw [Does, act_bind (rdG_reg ha), act_bind (rdV_vec hv), act_bind (rdG_reg hp), act_bind hload]
  rw [if_neg hgood, if_neg (not_not_intro halign), if_neg (Nat.not_le.mpr (Nat.lt_of_add_right_lt hlt)), if_neg hovr, if_neg hfull,
    act_bind hcheck]
  simp only [hscan]
  rw [act_bind hvals, act_bind hmask, if_neg hlast]
  exact act_bind hhdr

end

/-- Settles O27: by the runs of LDBM and of STBM in either space. -/
theorem bmvBlocks : Obligations.BmvBlocks := by
  unfold Obligations.BmvBlocks
  constructor
  · intro e he o s s1 s2 s3 s4 hb mb vb hr hx hf ho hd ha hp hload hn hbad hfmt hcap hnnz halign hlt hcheck hmask hcount hvals
    refine ⟨chunkVec mb vb _ _ _, (exec_of_mem_ldbm he o s).trans ?_, rfl⟩
    exact ldbmOf_of_good hr hx hf ho ha hload rfl rfl hn hbad hfmt halign hd hp rfl hcap hnnz hlt hcheck hmask hcount hvals
  · intro e he o s s1 s2 s3 s4 s5 hb els nnz m hr hx hf ho hv ha hp hload hn hbad hfmt halign hlt hopen hscan hcheck hvals hmask hhdr
    rw [exec_of_mem_stbm he]
    exact stbmOf_of_room hr hx hf ho ha hload rfl rfl hn hbad hfmt halign hv hp rfl hlt hopen hscan hcheck hvals hmask hhdr

end Sys2Proof.Proofs.CodedTiles
end
